-- ==== Sys2Proof/Word.lean ====
section
/-! DEFINITION. Word.lean: the words of the LH1 decoder and its small enumerations.
The widths are parameters of the instance (R6), so an integer register is held as a natural number that is kept below
two to the width; the arithmetic that wraps is in Machine/Ops.lean (R9, log 2). -/

namespace Sys2Proof

/-- A timestamp or a time difference: W bits, unsigned (R6, R9). -/
abbrev Ticks := Nat

/-- A ring index: IW bits, unsigned (R6, R24). -/
abbrev Index := Nat

/-- The bit pattern of a float of the format FLT, sign bit first (R43, R71). -/
abbrev FltBits := Nat

/-- An event word: W + 4 bits (R61). -/
abbrev EventWord := Nat

/-- The 3-bit sync code (R65). -/
abbrev SyncCode := BitVec 3

/-- The two fields of a PulseRecord (R21); `finish` is the spec's `end`. -/
inductive Field where
  | start
  | finish
  deriving DecidableEq, Repr

/-- The rotation axis (R27, R67). -/
inductive Axis where
  | sweep
  | creep
  deriving DecidableEq, Repr

/-- The axis bit of a sync code: 0 sweep, 1 creep (R27, R65). -/
def Axis.ofBit : Bool → Axis
  | false => .sweep
  | true => .creep

/-- The number of an axis, as `activeAxis` holds it and as the index into `angle[]` (R67). -/
def Axis.toNat : Axis → Nat
  | .sweep => 0
  | .creep => 1

/-- The values of the consumer's sequencer (R30); 7 is never reached and is no value here (U18). -/
inductive Phase where
  | idle
  | p1
  | p2
  | p3
  | p4
  | p5
  | p6
  deriving DecidableEq, Repr

/-- The number of a phase (R30, R68). -/
def Phase.toNat : Phase → Nat
  | .idle => 0
  | .p1 => 1
  | .p2 => 2
  | .p3 => 3
  | .p4 => 4
  | .p5 => 5
  | .p6 => 6

/-- What the classifier answers (R66, R90). -/
inductive PulseClass where
  | unclassified
  | beam
  | sync (c : SyncCode)
  deriving DecidableEq, Repr

/-- The class numbers NONE = 0, BEAM = 1, SYNC = 2 (R66). -/
def PulseClass.toNat : PulseClass → Nat
  | .unclassified => 0
  | .beam => 1
  | .sync _ => 2

end Sys2Proof
end

