-- ==== Sys2Proof/Config.lean ====
section
/-! DEFINITION. Config.lean: the parameters of an instance (R6), its default values, and the one free value.
The parameters are the block's read-only control registers (R34); State carries them, so that no rule hard-codes a
default (log 1). -/

namespace Sys2Proof

/-- A binary interchange format of IEEE 754: the widths of its exponent and fraction fields (R6 `FLT`, log 9). -/
structure FltFormat where
  expBits : Nat
  fracBits : Nat
  deriving DecidableEq, Repr

/-- IEEE 754 binary32, the default of `FLT` (R6). -/
def FltFormat.binary32 : FltFormat := { expBits := 8, fracBits := 23 }

/-- The parameters of R6, under the names of the spec. -/
structure Config where
  W : Nat
  K : Nat
  IW : Nat
  u : Nat
  low : Vector Nat 8
  high : Vector Nat 8
  beamCeiling : Nat
  deadZone : Nat
  span : Nat
  windowMax : Nat
  flt : FltFormat
  deriving DecidableEq, Repr

/-- The number of slots of the ring (R6). -/
def Config.capacity (c : Config) : Nat := 2 ^ c.K

/-- The lower bound of the window of a sync code (R91). -/
def Config.lowOf (c : Config) (k : SyncCode) : Nat := c.low.get ⟨k.toNat, k.isLt⟩

/-- The upper bound of the window of a sync code (R91). -/
def Config.highOf (c : Config) (k : SyncCode) : Nat := c.high.get ⟨k.toNat, k.isLt⟩

/-- The angular field in degrees, fixed (R6, C6). -/
def angleRange : Nat := 120

/-- Half the angular field, fixed (R6, C6). -/
def angleOffset : Nat := 60

/-- All sync codes, in the order the classifier scans them (R92). -/
def syncCodes : List SyncCode := [0, 1, 2, 3, 4, 5, 6, 7]

/-- The centre of window `c` of the default table, in nanoseconds (R96). -/
def windowCentre (c : Nat) : Nat := 62500 + c * 31250 / 3

/-- The lower bound of window `c` of the default table (R96). -/
def defaultLow (u c : Nat) : Nat := (windowCentre c - 5000) * u

/-- The upper bound of window `c` of the default table (R96). -/
def defaultHigh (u c : Nat) : Nat := (windowCentre c + 5000) * u

/-- The default configuration scaled by the time unit `u`; the conversion happens here and nowhere else (R6, R8, R96). -/
def Config.ofUnit (u : Nat) : Config where
  W := 32
  K := 8
  IW := 8
  u := u
  low := #v[defaultLow u 0, defaultLow u 1, defaultLow u 2, defaultLow u 3,
    defaultLow u 4, defaultLow u 5, defaultLow u 6, defaultLow u 7]
  high := #v[defaultHigh u 0, defaultHigh u 1, defaultHigh u 2, defaultHigh u 3,
    defaultHigh u 4, defaultHigh u 5, defaultHigh u 6, defaultHigh u 7]
  beamCeiling := 50000 * u
  deadZone := 1222222 * u
  span := 5555555 * u
  windowMax := 6777777 * u
  flt := FltFormat.binary32

/-- The default configuration, one tick a nanosecond (R6). -/
def Config.default : Config := Config.ofUnit 1

/-- FREE VALUE. The angle of a `SPAN` that rounds to infinity in FLT: the spec says of `angleOf` only that it is a
function inside the bounds of R122 (R121 excludes such a value, R10 produces it). Nothing constrains it beyond those
bounds, which `angleOf` imposes (log 10). Arguments: the format, `SPAN`, `k`. -/
opaque Config.freeAngleBits : FltFormat → Nat → Nat → Nat

end Sys2Proof
end

