-- ==== Sys2Proof/Syntax.lean ====
section
/-! DEFINITION. Syntax.lean: one constructor per row of spec/opcode_table.json, in the table's order.
The first sixteen are the event words of format EV (R61, R62, R64). The rows of the formats CPHASE, SYNC3 and CLASS2
number values inside a tick (R68): what they do when selected is their meaning (log 7). -/

namespace Sys2Proof

inductive Instr where
  /-- RESET (R160). -/
  | reset
  /-- SETUP (R130). -/
  | setup
  /-- EDGE.F t (R82). -/
  | edgeF (t : Ticks)
  /-- EDGE.R t (R81). -/
  | edgeR (t : Ticks)
  /-- POLL (R113). -/
  | poll
  /-- GETX (R123). -/
  | getX
  /-- GETY (R124). -/
  | getY
  /-- ISUPD (R131). -/
  | isUpd
  /-- BEGIN (R101). -/
  | beginTick
  /-- STEP (R102). -/
  | stepTick
  /-- Reserved op 1010; the low W bits are any value (R64). -/
  | reserved1010 (t : Nat)
  /-- Reserved op 1011 (R64). -/
  | reserved1011 (t : Nat)
  /-- Reserved op 1100 (R64). -/
  | reserved1100 (t : Nat)
  /-- Reserved op 1101 (R64). -/
  | reserved1101 (t : Nat)
  /-- Reserved op 1110 (R64). -/
  | reserved1110 (t : Nat)
  /-- Reserved op 1111 (R64). -/
  | reserved1111 (t : Nat)
  /-- cphase 0: no tick in progress (R30). -/
  | idle
  /-- cphase 1, phase CHECK (R103). -/
  | p1Check
  /-- cphase 2, phase SEEK (R104). -/
  | p2Seek
  /-- cphase 3, phase LOAD_START (R105). -/
  | p3LoadStart
  /-- cphase 4, phase LOAD_END (R106). -/
  | p4LoadEnd
  /-- cphase 5, phase DECODE (R107). -/
  | p5Decode
  /-- cphase 6, phase ADVANCE (R112). -/
  | p6Advance
  /-- Sync code 0: not skipped, sweep (R65, R108). -/
  | sync0
  /-- Sync code 1: not skipped, creep (R65, R108). -/
  | sync1
  /-- Sync code 2: not skipped, sweep, data bit set (R65, R108). -/
  | sync2
  /-- Sync code 3: not skipped, creep, data bit set (R65, R108). -/
  | sync3
  /-- Sync code 4: skipped, sweep (R65, R109). -/
  | sync4
  /-- Sync code 5: skipped, creep (R65, R109). -/
  | sync5
  /-- Sync code 6: skipped, sweep, data bit set (R65, R109). -/
  | sync6
  /-- Sync code 7: skipped, creep, data bit set (R65, R109). -/
  | sync7
  /-- Class 0, NONE (R66, R111). -/
  | classNone
  /-- Class 1, BEAM (R66, R110). -/
  | classBeam
  /-- Class 2, SYNC (R66, R107). -/
  | classSync
  deriving DecidableEq, Repr

/-- The four formats of spec/opcode_table.json (R61, R68). -/
inductive Format where
  | ev
  | cphase
  | sync3
  | class2
  deriving DecidableEq, Repr

/-- The format of an instruction's row. -/
def Instr.format : Instr → Format
  | .reset | .setup | .edgeF _ | .edgeR _ | .poll | .getX | .getY | .isUpd | .beginTick | .stepTick => .ev
  | .reserved1010 _ | .reserved1011 _ | .reserved1100 _ => .ev
  | .reserved1101 _ | .reserved1110 _ | .reserved1111 _ => .ev
  | .idle | .p1Check | .p2Seek | .p3LoadStart | .p4LoadEnd | .p5Decode | .p6Advance => .cphase
  | .sync0 | .sync1 | .sync2 | .sync3 | .sync4 | .sync5 | .sync6 | .sync7 => .sync3
  | .classNone | .classBeam | .classSync => .class2

/-- How many bits a word of a format has (R61, R68). -/
def Format.width (c : Config) : Format → Nat
  | .ev => c.W + 4
  | .cphase => 3
  | .sync3 => 3
  | .class2 => 2

end Sys2Proof
end

