-- ==== Sys2Proof/WellFormed.lean ====
section
/-! DEFINITION. WellFormed.lean: well-formed configurations (R6, R7, R95) and well-formed instructions (R61, R63). -/

namespace Sys2Proof

/-- `match(c, d)`: both inequalities strict and unsigned (R91). -/
abbrev Config.Matches (c : Config) (k : SyncCode) (d : Ticks) : Prop := c.lowOf k < d ∧ d < c.highOf k

/-- A value fits in W bits (R7, R95 (d)). -/
abbrev Config.Fits (c : Config) (v : Nat) : Prop := v ≤ 2 ^ c.W - 1

/-- No window is empty (R95 (a)). -/
abbrev Config.NonEmptyWindows (c : Config) : Prop := ∀ k ∈ syncCodes, c.lowOf k + 1 < c.highOf k

/-- The windows are pairwise disjoint (R95 (b)). -/
abbrev Config.DisjointWindows (c : Config) : Prop :=
  ∀ k ∈ syncCodes, ∀ j ∈ syncCodes, k ≠ j → c.highOf k ≤ c.lowOf j + 1 ∨ c.highOf j ≤ c.lowOf k + 1

/-- No window reaches into the beam range (R95 (c)). -/
abbrev Config.CeilingBelowWindows (c : Config) : Prop := ∀ k ∈ syncCodes, c.beamCeiling ≤ c.lowOf k + 1

/-- Every constant fits in W bits (R7, R95 (d)). -/
abbrev Config.ConstantsFit (c : Config) : Prop :=
  (∀ k ∈ syncCodes, c.Fits (c.lowOf k) ∧ c.Fits (c.highOf k)) ∧
  c.Fits c.beamCeiling ∧ c.Fits c.deadZone ∧ c.Fits c.span ∧ c.Fits c.windowMax

/-- DEDUCED (log 9). The format holds 120 and 60 exactly, which R122 (a) rests on ("all exact"). -/
abbrev FltFormat.WF (f : FltFormat) : Prop := 4 ≤ f.expBits ∧ 3 ≤ f.fracBits

/-- A well-formed configuration (R7): every constraint of R6, every constant within W bits, and the table of R95. -/
abbrev Config.WF (c : Config) : Prop :=
  24 ≤ c.W ∧ 1 ≤ c.K ∧ c.K ≤ c.IW ∧ 1 ≤ c.u ∧ 1 ≤ c.span ∧ c.windowMax = c.deadZone + c.span ∧
  c.NonEmptyWindows ∧ c.DisjointWindows ∧ c.CeilingBelowWindows ∧ c.ConstantsFit ∧ c.flt.WF

/-- The value of the `t` field of an instruction's word: its operand, or the don't-care bits of a reserved code, or 0. -/
def Instr.tField : Instr → Nat
  | .edgeF t | .edgeR t => t
  | .reserved1010 t | .reserved1011 t | .reserved1100 t => t
  | .reserved1101 t | .reserved1110 t | .reserved1111 t => t
  | .reset | .setup | .poll | .getX | .getY | .isUpd | .beginTick | .stepTick => 0
  | .idle | .p1Check | .p2Seek | .p3LoadStart | .p4LoadEnd | .p5Decode | .p6Advance => 0
  | .sync0 | .sync1 | .sync2 | .sync3 | .sync4 | .sync5 | .sync6 | .sync7 => 0
  | .classNone | .classBeam | .classSync => 0

/-- A well-formed instruction: its `t` field has W bits (R61). -/
abbrev Instr.WF (c : Config) (i : Instr) : Prop := i.tField < 2 ^ c.W

end Sys2Proof
end

