-- ==== Sys2Proof/Decode.lean ====
section
/-! DEFINITION. Decode.lean: the decoder of each of the four formats, total on every number, and the encoder.
An event word is decoded as R61 says: `op` is `[W+3:W]`, `t` is `[W-1:0]`. -/

namespace Sys2Proof

/-- Why a word has no instruction. -/
inductive DecodeError where
  /-- The `t` field of an operation other than the edges is not zero (R64 (b)). -/
  | nonzeroOperand
  /-- The number is no word of the format: it needs more bits, or it is a phase or class number that does not exist
  (log 12). -/
  | notAWord
  deriving DecidableEq, Repr

/-- An operation without operand: its `t` field must be all zeroes (R63, R64 (b)). -/
def bareOp (i : Instr) (t : Nat) : Except DecodeError Instr :=
  if t = 0 then .ok i else .error .nonzeroOperand

/-- The operation map (R62) and the reserved codes (R64 (a)); the bits below a reserved code are not looked at (log 11). -/
def decodeOp (op t : Nat) : Except DecodeError Instr :=
  match op with
  | 0 => bareOp .reset t
  | 1 => bareOp .setup t
  | 2 => .ok (.edgeF t)
  | 3 => .ok (.edgeR t)
  | 4 => bareOp .poll t
  | 5 => bareOp .getX t
  | 6 => bareOp .getY t
  | 7 => bareOp .isUpd t
  | 8 => bareOp .beginTick t
  | 9 => bareOp .stepTick t
  | 10 => .ok (.reserved1010 t)
  | 11 => .ok (.reserved1011 t)
  | 12 => .ok (.reserved1100 t)
  | 13 => .ok (.reserved1101 t)
  | 14 => .ok (.reserved1110 t)
  | 15 => .ok (.reserved1111 t)
  | _ => .error .notAWord

/-- The decoder of event words (R61). -/
def decode (c : Config) (w : EventWord) : Except DecodeError Instr := decodeOp (w / 2 ^ c.W) (w % 2 ^ c.W)

/-- The row of a `cphase` value (R30, R68); 7 does not exist. -/
def decodePhase : Nat → Except DecodeError Instr
  | 0 => .ok .idle
  | 1 => .ok .p1Check
  | 2 => .ok .p2Seek
  | 3 => .ok .p3LoadStart
  | 4 => .ok .p4LoadEnd
  | 5 => .ok .p5Decode
  | 6 => .ok .p6Advance
  | _ => .error .notAWord

/-- The row of a sync code (R65); all eight values are legal. -/
def decodeSyncCode : Nat → Except DecodeError Instr
  | 0 => .ok .sync0
  | 1 => .ok .sync1
  | 2 => .ok .sync2
  | 3 => .ok .sync3
  | 4 => .ok .sync4
  | 5 => .ok .sync5
  | 6 => .ok .sync6
  | 7 => .ok .sync7
  | _ => .error .notAWord

/-- The row of a pulse class number (R66). -/
def decodeClass : Nat → Except DecodeError Instr
  | 0 => .ok .classNone
  | 1 => .ok .classBeam
  | 2 => .ok .classSync
  | _ => .error .notAWord

/-- The decoder of a format of the table (R61, R68). -/
def decodeFormat (c : Config) (f : Format) (w : Nat) : Except DecodeError Instr :=
  match f with
  | .ev => decode c w
  | .cphase => decodePhase w
  | .sync3 => decodeSyncCode w
  | .class2 => decodeClass w

/-- The instruction of a table word. A word of more than one byte is an event word of the default width (the table
shows W = 32); a word of one byte is a `cphase` value, since that is the only one of the three short formats that
selects what a step runs (log 8). -/
def decodeTableWord (nbits w : Nat) : Option Instr :=
  (decodeFormat Config.default (if 8 < nbits then .ev else .cphase) w).toOption

/-- The `op` field of an event word, or the whole word of a row of another format. -/
def Instr.code : Instr → Nat
  | .reset => 0
  | .setup => 1
  | .edgeF _ => 2
  | .edgeR _ => 3
  | .poll => 4
  | .getX => 5
  | .getY => 6
  | .isUpd => 7
  | .beginTick => 8
  | .stepTick => 9
  | .reserved1010 _ => 10
  | .reserved1011 _ => 11
  | .reserved1100 _ => 12
  | .reserved1101 _ => 13
  | .reserved1110 _ => 14
  | .reserved1111 _ => 15
  | .idle => 0
  | .p1Check => 1
  | .p2Seek => 2
  | .p3LoadStart => 3
  | .p4LoadEnd => 4
  | .p5Decode => 5
  | .p6Advance => 6
  | .sync0 => 0
  | .sync1 => 1
  | .sync2 => 2
  | .sync3 => 3
  | .sync4 => 4
  | .sync5 => 5
  | .sync6 => 6
  | .sync7 => 7
  | .classNone => 0
  | .classBeam => 1
  | .classSync => 2

/-- The word of an instruction in its format: `{op, t}` for an event word (R61). -/
def encode (c : Config) (i : Instr) : Nat :=
  match i.format with
  | .ev => i.code * 2 ^ c.W + i.tField
  | .cphase | .sync3 | .class2 => i.code

end Sys2Proof
end

