-- ==== Sys2Proof/Machine/State.lean ====
section
/-! DEFINITION. Machine/State.lean: the architectural state (R20), its reset value (R37), the faults and the refusals. -/

namespace Sys2Proof.Machine

/-- The block never faults (R158, "The block itself never faults"): there is no reason to fault. -/
inductive Fault where
  deriving DecidableEq, Repr

/-- The refusals of R158, and two of the model's own. -/
inductive Refusal where
  /-- Raised by an arm of exec whose instruction has no meaning yet; none is left. Safe. -/
  | notModelled (mnemonic : String)
  /-- Raised by the six reserved op codes (R64 (a), R158 `ReservedOp`). Safe: toward unprovable. -/
  | reservedOp
  /-- Raised by step for a non-edge word whose `t` field is not zero (R64 (b), R158 `NonzeroOperand`). Safe. -/
  | nonzeroOperand
  /-- Raised by SETUP while `enabled = 1` (R130, R158 `SecondSetup`). Safe. -/
  | secondSetup
  /-- Raised by BEGIN and POLL while `cphase` is not IDLE (R101, R113, R158 `ReentrantTick`). Safe. -/
  | reentrantTick
  /-- Raised by STEP while `cphase` is IDLE, and by the row IDLE (R102, R158 `StepWhileIdle`). Safe. -/
  | stepWhileIdle
  /-- Raised by GETX and GETY while `cphase` is not IDLE (R123, R124, R158 `AccessorDuringTick`). Safe. -/
  | accessorDuringTick
  /-- Raised by step while the configuration is not well formed (R7, R158 `IllFormedConfig`). Safe. -/
  | illFormedConfig
  /-- Raised by step for an input that is not a word of W + 4 bits (R61, log 12). Safe: no such word can be delivered. -/
  | notAnEventWord
  deriving DecidableEq, Repr

/-- What an operation hands back: nothing, `result_b`, or `result_f` (R60, R71). -/
inductive Result where
  | nothing
  | bool (b : Bool)
  | float (bits : FltBits)
  deriving DecidableEq, Repr

/-- The ring's storage: pairs of a field's address and its value, in one canonical form (R40, R43, log 6). -/
abbrev Memory := List (Nat × Nat)

/-- The canonical form: addresses strictly rising, and no entry that equals what an unlisted address reads as, 0 (R37). -/
abbrev Memory.wf (m : Memory) : Prop := m.Pairwise (fun a b => a.1 < b.1) ∧ ∀ e ∈ m, e.2 ≠ 0

/-- The complete state of one instance (R20), its configuration (R6, R34, log 1), and the model's two ports
`result` (log 4) and `input` (log 3). -/
structure State where
  /-- The configuration constants, never written by any operation (R34). -/
  cfg : Config
  /-- `slot[i].start` and `slot[i].end` (R21, R23). -/
  ring : Memory
  /-- Next slot the producer will write (R24). -/
  writeIndex : Index
  /-- Next slot the consumer will read (R24). -/
  readIndex : Index
  /-- Start of the most recent recognised sync pulse (R26). -/
  syncPulseStart : Ticks
  /-- The axis of the next beam (R27). -/
  activeAxis : Axis
  /-- `angle[SWEEP]` (R28). -/
  angleSweep : FltBits
  /-- `angle[CREEP]` (R28). -/
  angleCreep : FltBits
  /-- A tick is in progress (R29). -/
  updating : Bool
  /-- `setup()` has been performed (R32). -/
  enabled : Bool
  /-- The consumer's sequencer (R30). -/
  cphase : Phase
  /-- The latch of the record's start (R31). -/
  cStart : Ticks
  /-- The latch of the record's end (R31). -/
  cEnd : Ticks
  /-- The latch of the tick's result (R31). -/
  cRet : Bool
  /-- The result ports `result_b` and `result_f` after the last operation (R60, log 4). -/
  result : Result
  /-- The event words still to be delivered, the next one first (R69, log 3). -/
  input : List EventWord
  deriving DecidableEq, Repr

/-- The state after reset: every register and ring field as R37 gives it, the default configuration (R6, log 1), no
result and no input (log 3, log 4). -/
def State.reset : State where
  cfg := Config.default
  ring := []
  writeIndex := 0
  readIndex := 0
  syncPulseStart := 0
  activeAxis := .sweep
  angleSweep := 0
  angleCreep := 0
  updating := false
  enabled := false
  cphase := .idle
  cStart := 0
  cEnd := 0
  cRet := false
  result := .nothing
  input := []

/-- The outcome of one operation. -/
abbrev Out := Host.Outcome State Fault Refusal

end Sys2Proof.Machine
end

