-- ==== Sys2Proof/Machine/Ops.lean ====
section
/-! DEFINITION. Machine/Ops.lean: the named operations over the registers and the ring: modular arithmetic (R9), the
access primitives (R10, R42), one named update per register, the delivery of an edge interrupt (R146 to R150), the
refusals that depend on the sequencer (R64 (d)), and the delivery of the next event word (R61). -/

namespace Sys2Proof.Machine

/-! ### Arithmetic modulo two to a width (R9) -/

/-- `a -_w b`, that is `(a - b) mod 2^w` (R9). -/
def subMod (w a b : Nat) : Nat := (a + (2 ^ w - b % 2 ^ w)) % 2 ^ w

/-- `a +_w 1` (R9). -/
def incMod (w a : Nat) : Nat := (a + 1) % 2 ^ w

/-- `a -_w 1` (R9). -/
def decMod (w a : Nat) : Nat := subMod w a 1

/-! ### The ring's storage (R40 to R42) -/

/-- The value of a field; an address that is not listed reads 0, its reset value (R37). -/
def Memory.read : Memory → Nat → Nat
  | [], _ => 0
  | (b, v) :: m, a => if b = a then v else Memory.read m a

/-- The cell list with the field at `a` put in front, unless its value is the one an unlisted address reads as. -/
def Memory.cons (a v : Nat) (m : Memory) : Memory := if v = 0 then m else (a, v) :: m

/-- The whole field at `a` replaced by `v`, in canonical form (R42). -/
def Memory.write : Memory → Nat → Nat → Memory
  | [], a, v => Memory.cons a v []
  | (b, x) :: m, a, v =>
    if a < b then Memory.cons a v ((b, x) :: m)
    else if a = b then Memory.cons a v m
    else (b, x) :: Memory.write m a v

/-- The number of a field within its slot (log 6). -/
def fieldNumber : Field → Nat
  | .start => 0
  | .finish => 1

/-- The slot an index names: `i mod CAPACITY` (R41). -/
def slotOf (c : Config) (i : Index) : Nat := i % c.capacity

/-- The address of a field of the slot that an index names (R40, R41, log 6). -/
def slotAddr (c : Config) (i : Index) (f : Field) : Nat := 2 * slotOf c i + fieldNumber f

/-- `SlotRead(i, f)` (R10, R42): one whole field, no side effect. -/
def slotRead (s : State) (i : Index) (f : Field) : Ticks := s.ring.read (slotAddr s.cfg i f)

/-! ### One named update per register (R20) -/

def State.setRing (s : State) (m : Memory) : State := { s with ring := m }

def State.setWriteIndex (s : State) (i : Index) : State := { s with writeIndex := i }

def State.setReadIndex (s : State) (i : Index) : State := { s with readIndex := i }

/-- The origin and the axis, which are always written together (R26, R27, R108). -/
def State.setOrigin (s : State) (t : Ticks) (a : Axis) : State := { s with syncPulseStart := t, activeAxis := a }

/-- `angle[a] <- v` (R28): the other axis's register keeps its value (R127). -/
def State.setAngle (s : State) (a : Axis) (v : FltBits) : State :=
  { s with
    angleSweep := if a = .sweep then v else s.angleSweep
    angleCreep := if a = .creep then v else s.angleCreep }

/-- `angle[a]` (R28, R67). -/
def State.angle (s : State) : Axis → FltBits
  | .sweep => s.angleSweep
  | .creep => s.angleCreep

def State.setPhase (s : State) (p : Phase) : State := { s with cphase := p }

def State.setStartLatch (s : State) (t : Ticks) : State := { s with cStart := t }

def State.setEndLatch (s : State) (t : Ticks) : State := { s with cEnd := t }

/-- The value an operation hands back, or nothing (R60). -/
def State.setResult (s : State) (r : Result) : State := { s with result := r }

def State.setInput (s : State) (ws : List EventWord) : State := { s with input := ws }

/-- `SlotWrite(i, f, v)` (R10, R42): the whole field and nothing else. -/
def slotWrite (s : State) (i : Index) (f : Field) (v : Ticks) : State :=
  s.setRing (s.ring.write (slotAddr s.cfg i f) v)

/-- `IdxLoad(writeIndex)` (R10, R52): the current value, loaded anew at each use. -/
def loadWriteIndex (s : State) : Index := s.writeIndex

/-! ### The edge interrupt, the block's only exception (R146 to R150) -/

/-- Deliver an edge: while `enabled = 1` the handler runs as one atomic step (R12, R146); while it is 0 the handler is
not invoked and nothing changes (R83). Entry saves nothing and switches nothing (R149); there is no return operation,
and the consumer resumes at the phase `cphase` names, which the handler does not touch (R150). An edge has no result. -/
def takeEdgeInterrupt (handler : State → State) (s : State) : State :=
  (if s.enabled then handler s else s).setResult .nothing

/-! ### Refusals that depend on the sequencer (R64 (d), R158) -/

/-- Refuse for the reason `r` unless no tick is in progress. -/
def whenIdle (r : Refusal) (s : State) (k : State → State) : Out :=
  if s.cphase = .idle then .next (k s) else .refused r

/-! ### The next event word (R61, R69) -/

/-- Take the next event word off the input; none while the input is empty (log 3). -/
def fetch (s : State) : Option (EventWord × State) :=
  match s.input with
  | [] => none
  | w :: ws => some (w, s.setInput ws)

/-- The refusal of a word that the decoder rejects (R64, R158, log 12). -/
def refusalOf : DecodeError → Refusal
  | .nonzeroOperand => .nonzeroOperand
  | .notAWord => .notAnEventWord

/-- The word of STEP at the width of the instance. -/
def stepWord (c : Config) : EventWord := encode c .stepTick

/-- The phase a row of format CPHASE names; IDLE for any other number. -/
def phaseOfCode : Nat → Phase
  | 1 => .p1
  | 2 => .p2
  | 3 => .p3
  | 4 => .p4
  | 5 => .p5
  | 6 => .p6
  | _ => .idle

end Sys2Proof.Machine
end

