-- ==== Sys2Proof/Machine/Operands.lean ====
section
/-! DEFINITION. Machine/Operands.lean: the operands of the operations and the fields of a sync code. -/

namespace Sys2Proof.Machine

/-- The timestamp operand of an edge, used as it stands: not scaled, not shifted, not sign-extended (R63). -/
def timestampOperand (t : Ticks) : Ticks := t

/-- `c[2]`, skip (R65, R94). -/
def skipBit (c : SyncCode) : Bool := c.getLsbD 2

/-- `c[1]`, data: decoded and never used (R65, R94). -/
def dataBit (c : SyncCode) : Bool := c.getLsbD 1

/-- `c[0]`, axis (R65, R94). -/
def axisBit (c : SyncCode) : Bool := c.getLsbD 0

/-- The duration `d` of the latched record, modulo 2^W (R107). -/
def latchedDuration (s : State) : Ticks := subMod s.cfg.W s.cEnd s.cStart

/-- The position `rel` of the latched record after the origin, modulo 2^W (R110). -/
def relativeStart (s : State) : Ticks := subMod s.cfg.W s.cStart s.syncPulseStart

end Sys2Proof.Machine
end

