-- ==== Sys2Proof/Machine/Flags.lean ====
section
/-! DEFINITION. Machine/Flags.lean: the one-bit state other than the axis: `updating`, `enabled`, `c_ret` (R33).
There are no condition codes. -/

namespace Sys2Proof.Machine

/-- `updating` (R29): set by BEGIN, cleared by the step that ends the tick. -/
def State.setUpdating (s : State) (b : Bool) : State := { s with updating := b }

/-- `enabled` (R32): set by SETUP, cleared only by RESET. -/
def State.setEnabled (s : State) (b : Bool) : State := { s with enabled := b }

/-- `c_ret` (R31): cleared by phase P5, set by the store of an angle (R107, R110). -/
def State.setRet (s : State) (b : Bool) : State := { s with cRet := b }

/-- The end of a tick: `updating <- 0`, `cphase <- IDLE`, and the result (R103, R112). -/
def endTick (s : State) (b : Bool) : State := ((s.setUpdating false).setPhase .idle).setResult (.bool b)

/-- The phase moves on and there is no result yet (R102). -/
def toPhase (s : State) (p : Phase) : State := (s.setPhase p).setResult .nothing

end Sys2Proof.Machine
end

