-- ==== Sys2Proof/Machine/Classifier.lean ====
section
/-! DEFINITION. Machine/Classifier.lean: the Timing-Window Classifier, a pure function of a duration and the
configuration (R90 to R93). It is total on any table (R92). -/

namespace Sys2Proof.Machine

/-- The linear scan: the least code whose window matches (R92). -/
def firstMatch (c : Config) (d : Ticks) : Option SyncCode := syncCodes.find? (fun k => decide (c.Matches k d))

/-- `classify(d)` (R90, R93). -/
def classify (c : Config) (d : Ticks) : PulseClass :=
  match firstMatch c d with
  | some k => .sync k
  | none => if d < c.beamCeiling then .beam else .unclassified

/-- The 3-bit code beside the class of the latched record; it is 0 unless the class is SYNC (R66). -/
def latchedCode (s : State) : SyncCode :=
  match classify s.cfg (latchedDuration s) with
  | .sync k => k
  | .beam | .unclassified => 0

end Sys2Proof.Machine
end

