-- ==== Sys2Proof/Machine/Angle.lean ====
section
/-! DEFINITION. Machine/Angle.lean: the angle converter (R120 to R122) and the accessors GETX and GETY (R123 to R127).

A finite non-negative float of the format FLT is held as the number of units it is a multiple of, where one unit is
the smallest subnormal, two to the minus `scale`. The representable numbers of units are those with at most
`fracBits + 1` significant bits. Every operation computes the exact quotient of two naturals and rounds it once, to
nearest, ties to even (R10 `f32`, R121). -/

namespace Sys2Proof.Machine

/-! ### Arithmetic of the format FLT -/

/-- One is two to this many units: the bias less one, plus the fraction bits (149 for binary32). -/
def fltScale (f : FltFormat) : Nat := 2 ^ (f.expBits - 1) - 2 + f.fracBits

/-- The number 1.0 in units. -/
def fltOne (f : FltFormat) : Nat := 2 ^ fltScale f

/-- The nearest natural to `n / d`, ties to even. -/
def nearestEven (n d : Nat) : Nat :=
  if 2 * (n % d) < d then n / d
  else if d < 2 * (n % d) then n / d + 1
  else n / d + n / d % 2

/-- The exact number of units `n / d` rounded to the format: to a multiple of the unit in the last place of its
binade, which is one unit in the lowest binade and among the subnormals. -/
def fltRound (f : FltFormat) (n d : Nat) : Nat :=
  let ulp := 2 ^ (Nat.log2 (n / d) - f.fracBits)
  nearestEven n (d * ulp) * ulp

/-- The integer `n` in FLT (R121: `f32(k)`). -/
def fltOfNat (f : FltFormat) (n : Nat) : Nat := fltRound f (n * fltOne f) 1

/-- The rounded quotient of two floats. -/
def fltDiv (f : FltFormat) (a b : Nat) : Nat := fltRound f (a * fltOne f) b

/-- The rounded product of two floats. -/
def fltMul (f : FltFormat) (a b : Nat) : Nat := fltRound f (a * b) (fltOne f)

/-- A number of units that the format rounds to infinity. -/
def fltOverflows (f : FltFormat) (m : Nat) : Bool := decide (2 ^ f.expBits - 2 + f.fracBits ≤ Nat.log2 m)

/-- The bit pattern of a non-negative float: exponent field, then fraction field. -/
def fltEncode (f : FltFormat) (m : Nat) : FltBits :=
  let e := Nat.log2 m - f.fracBits
  e * 2 ^ f.fracBits + m / 2 ^ e

/-- The sign bit of a pattern. -/
def fltSign (f : FltFormat) (neg : Bool) : FltBits := if neg then 2 ^ (f.expBits + f.fracBits) else 0

/-- The pattern of the rounded difference of two floats; an exact zero is +0.0. -/
def fltSub (f : FltFormat) (a b : Nat) : FltBits :=
  if a < b then fltSign f true + fltEncode f (fltRound f (b - a) 1)
  else fltEncode f (fltRound f (a - b) 1)

/-- A number of units that the format represents: at most `fracBits + 1` significant bits. -/
def FltRepresentable (f : FltFormat) (r : Nat) : Prop := ∃ m e, m < 2 ^ (f.fracBits + 1) ∧ r = m * 2 ^ e

/-- The value of a finite pattern, in units: the reading of the fields that `fltEncode` writes. -/
def fltValue (f : FltFormat) (v : FltBits) : Int :=
  let e := v / 2 ^ f.fracBits % 2 ^ f.expBits
  let m := v % 2 ^ f.fracBits
  let mag := if e = 0 then m else (2 ^ f.fracBits + m) * 2 ^ (e - 1)
  if v / 2 ^ (f.expBits + f.fracBits) % 2 = 1 then -(mag : Int) else mag

/-! ### The mapping -/

/-- FREE VALUE (log 10). The angle where `SPAN` rounds to infinity: the end points are those of R122 (a), every other
angle is any value of R122 (c). -/
def freeAngle (c : Config) (k : Nat) : FltBits :=
  let sixty := fltOfNat c.flt angleOffset
  let n := Config.freeAngleBits c.flt c.span k
  if k = 0 then fltSub c.flt 0 sixty
  else if k = c.span then fltEncode c.flt sixty
  else fltSign c.flt (n % 2 == 1) + n / 2 % (fltEncode c.flt sixty + 1)

/-- `angleOf(k)` (R121): five operations, each rounded once. -/
def angleOf (c : Config) (k : Nat) : FltBits :=
  let f := c.flt
  let a := fltOfNat f k
  let s := fltOfNat f c.span
  if fltOverflows f s then freeAngle c k
  else
    let q := fltDiv f a s
    let p := fltMul f q (fltOfNat f angleRange)
    fltSub f p (fltOfNat f angleOffset)

/-! ### The accessors -/

/-- Hand back `angle[a]`; nothing is written (R123, R124). -/
def returnAngle (a : Axis) (s : State) : State := s.setResult (.float (s.angle a))

/-- GETX (R123). -/
def execGetX (s : State) : Out := whenIdle .accessorDuringTick s (returnAngle .sweep)

/-- GETY (R124). -/
def execGetY (s : State) : Out := whenIdle .accessorDuringTick s (returnAngle .creep)

end Sys2Proof.Machine
end

