-- ==== Sys2Proof/Machine/PulseClasses.lean ====
section
/-! DEFINITION. Machine/PulseClasses.lean: the arms that phase P5 takes, by pulse class and by sync code (R107 to R111),
and the meaning of the table's SYNC3 and CLASS2 rows, which is the arm itself (log 7). -/

namespace Sys2Proof.Machine

/-- A sync pulse (R108, R109): a code whose skip bit is 1 changes nothing; any other sets the origin and the axis. The
data bit is not looked at. -/
def syncArm (k : SyncCode) (s : State) : State :=
  if skipBit k then s else s.setOrigin s.cStart (Axis.ofBit (axisBit k))

/-- A beam pulse (R110): discarded outside the closed window, else the angle is stored and the tick reports it. -/
def beamArm (s : State) : State :=
  let rel := relativeStart s
  if rel < s.cfg.deadZone ∨ s.cfg.windowMax < rel then s
  else (s.setAngle s.activeAxis (angleOf s.cfg (rel - s.cfg.deadZone))).setRet true

/-- An unclassifiable pulse (R111). -/
def noneArm (s : State) : State := s

/-- The arm of a class (R107). -/
def classArm (cls : PulseClass) (s : State) : State :=
  match cls with
  | .sync k => syncArm k s
  | .beam => beamArm s
  | .unclassified => noneArm s

/-- SYNC0 (R65, R108). -/
def execSync0 (s : State) : Out := .next (syncArm 0 s)

/-- SYNC1 (R65, R108). -/
def execSync1 (s : State) : Out := .next (syncArm 1 s)

/-- SYNC2 (R65, R108). -/
def execSync2 (s : State) : Out := .next (syncArm 2 s)

/-- SYNC3 (R65, R108). -/
def execSync3 (s : State) : Out := .next (syncArm 3 s)

/-- SYNC4 (R65, R109). -/
def execSync4 (s : State) : Out := .next (syncArm 4 s)

/-- SYNC5 (R65, R109). -/
def execSync5 (s : State) : Out := .next (syncArm 5 s)

/-- SYNC6 (R65, R109). -/
def execSync6 (s : State) : Out := .next (syncArm 6 s)

/-- SYNC7 (R65, R109). -/
def execSync7 (s : State) : Out := .next (syncArm 7 s)

/-- CLASS.NONE (R111). -/
def execClassNone (s : State) : Out := .next (noneArm s)

/-- CLASS.BEAM (R110). -/
def execClassBeam (s : State) : Out := .next (beamArm s)

/-- CLASS.SYNC (R107): dispatched on the code of the latched record; the code is 0 where no window matches (R66, log 7). -/
def execClassSync (s : State) : Out := .next (syncArm (latchedCode s) s)

end Sys2Proof.Machine
end

