-- ==== Sys2Proof/Machine/Consumer.lean ====
section
/-! DEFINITION. Machine/Consumer.lean: the Pulse Classifier: BEGIN, STEP, POLL and the phases P1 to P6 (R100 to R118). -/

namespace Sys2Proof.Machine

/-- What BEGIN does when no tick is in progress (R101). -/
def beginOp (s : State) : State := toPhase (s.setUpdating true) .p1

/-- Phase P1, CHECK (R103). -/
def phaseCheck (s : State) : State :=
  if s.readIndex = loadWriteIndex s then endTick s false else toPhase s .p2

/-- Phase P2, SEEK (R104): a fresh load of `writeIndex` (R52). -/
def phaseSeek (s : State) : State := toPhase (s.setReadIndex (decMod s.cfg.IW (loadWriteIndex s))) .p3

/-- Phase P3, LOAD_START (R105). -/
def phaseLoadStart (s : State) : State := toPhase (s.setStartLatch (slotRead s s.readIndex .start)) .p4

/-- Phase P4, LOAD_END (R106). -/
def phaseLoadEnd (s : State) : State := toPhase (s.setEndLatch (slotRead s s.readIndex .finish)) .p5

/-- Phase P5, DECODE (R107). -/
def phaseDecode (s : State) : State :=
  toPhase (classArm (classify s.cfg (latchedDuration s)) (s.setRet false)) .p6

/-- Phase P6, ADVANCE (R112). -/
def phaseAdvance (s : State) : State := endTick (s.setReadIndex (incMod s.cfg.IW s.readIndex)) s.cRet

/-- A whole tick with no producer step inside it (R113): a straight line with one early exit (R102). -/
def wholeTick (s : State) : State :=
  let s1 := phaseCheck (beginOp s)
  if s1.cphase = .idle then s1
  else phaseAdvance (phaseDecode (phaseLoadEnd (phaseLoadStart (phaseSeek s1))))

/-- BEGIN (R101). -/
def execBeginTick (s : State) : Out := whenIdle .reentrantTick s beginOp

/-- POLL (R113). -/
def execPoll (s : State) : Out := whenIdle .reentrantTick s wholeTick

/-- The row IDLE of the phases: there is no phase to run, and STEP is refused (R102, R158). -/
def execIdle (_s : State) : Out := .refused .stepWhileIdle

/-- P1.CHECK (R103). -/
def execP1Check (s : State) : Out := .next (phaseCheck s)

/-- P2.SEEK (R104). -/
def execP2Seek (s : State) : Out := .next (phaseSeek s)

/-- P3.LOAD_START (R105). -/
def execP3LoadStart (s : State) : Out := .next (phaseLoadStart s)

/-- P4.LOAD_END (R106). -/
def execP4LoadEnd (s : State) : Out := .next (phaseLoadEnd s)

/-- P5.DECODE (R107). -/
def execP5Decode (s : State) : Out := .next (phaseDecode s)

/-- P6.ADVANCE (R112). -/
def execP6Advance (s : State) : Out := .next (phaseAdvance s)

/-- STEP (R102): the phase that `cphase` names. -/
def execStepTick (s : State) : Out :=
  match s.cphase with
  | .idle => execIdle s
  | .p1 => execP1Check s
  | .p2 => execP2Seek s
  | .p3 => execP3LoadStart s
  | .p4 => execP4LoadEnd s
  | .p5 => execP5Decode s
  | .p6 => execP6Advance s

end Sys2Proof.Machine
end

