-- ==== Sys2Proof/Machine/HostControl.lean ====
section
/-! DEFINITION. Machine/HostControl.lean: RESET (R160), SETUP (R130), ISUPD (R131), and the reserved codes (R64). -/

namespace Sys2Proof.Machine

/-- RESET (R160): every register and ring field takes its value of R37, in every state; the configuration constants
are not state and are not touched, and the words still to be delivered are outside the block. -/
def execReset (s : State) : Out := .next ({ State.reset with cfg := s.cfg }.setInput s.input)

/-- SETUP (R130): refused when it has been performed already. -/
def execSetup (s : State) : Out :=
  if s.enabled then .refused .secondSetup else .next ((s.setEnabled true).setResult .nothing)

/-- ISUPD (R131): legal in every state; nothing is written. -/
def execIsUpd (s : State) : Out := .next (s.setResult (.bool s.updating))

/-- The reserved op code 1010 (R64 (a)); its other bits are any value. -/
def execReserved1010 (_t : Nat) (_s : State) : Out := .refused .reservedOp

/-- The reserved op code 1011 (R64 (a)). -/
def execReserved1011 (_t : Nat) (_s : State) : Out := .refused .reservedOp

/-- The reserved op code 1100 (R64 (a)). -/
def execReserved1100 (_t : Nat) (_s : State) : Out := .refused .reservedOp

/-- The reserved op code 1101 (R64 (a)). -/
def execReserved1101 (_t : Nat) (_s : State) : Out := .refused .reservedOp

/-- The reserved op code 1110 (R64 (a)). -/
def execReserved1110 (_t : Nat) (_s : State) : Out := .refused .reservedOp

/-- The reserved op code 1111 (R64 (a)). -/
def execReserved1111 (_t : Nat) (_s : State) : Out := .refused .reservedOp

end Sys2Proof.Machine
end

