-- ==== Sys2Proof/Machine/Producer.lean ====
section
/-! DEFINITION. Machine/Producer.lean: the Edge Timestamper, EDGE.R and EDGE.F (R80 to R88). -/

namespace Sys2Proof.Machine

/-- The handler's work on a rising edge (R81). -/
def latchRise (t : Ticks) (s : State) : State := slotWrite s s.writeIndex .start (timestampOperand t)

/-- The handler's work on a falling edge: the field first, then the index (R49, R82). -/
def latchFall (t : Ticks) (s : State) : State :=
  (slotWrite s s.writeIndex .finish (timestampOperand t)).setWriteIndex (incMod s.cfg.IW s.writeIndex)

/-- EDGE.R t (R81, R83). -/
def execEdgeR (t : Ticks) (s : State) : Out := .next (takeEdgeInterrupt (latchRise t) s)

/-- EDGE.F t (R82, R83). -/
def execEdgeF (t : Ticks) (s : State) : Out := .next (takeEdgeInterrupt (latchFall t) s)

end Sys2Proof.Machine
end

