-- ==== Sys2Proof/Machine/Dispatch.lean ====
section
/-! DEFINITION. Machine/Dispatch.lean: the meaning of every row of spec/opcode_table.json, one arm each. -/

namespace Sys2Proof.Machine

-- Event words (R62), then the reserved codes (R64), the phases (R102), the sync codes and the classes (R107).
def exec (i : Instr) (s : State) : Host.Outcome State Fault Refusal :=
  match i with
  | .reset => Sys2Proof.Machine.execReset s
  | .setup => Sys2Proof.Machine.execSetup s
  | .edgeF t => Sys2Proof.Machine.execEdgeF t s
  | .edgeR t => Sys2Proof.Machine.execEdgeR t s
  | .poll => Sys2Proof.Machine.execPoll s
  | .getX => Sys2Proof.Machine.execGetX s
  | .getY => Sys2Proof.Machine.execGetY s
  | .isUpd => Sys2Proof.Machine.execIsUpd s
  | .beginTick => Sys2Proof.Machine.execBeginTick s
  | .stepTick => Sys2Proof.Machine.execStepTick s
  | .reserved1010 t => Sys2Proof.Machine.execReserved1010 t s
  | .reserved1011 t => Sys2Proof.Machine.execReserved1011 t s
  | .reserved1100 t => Sys2Proof.Machine.execReserved1100 t s
  | .reserved1101 t => Sys2Proof.Machine.execReserved1101 t s
  | .reserved1110 t => Sys2Proof.Machine.execReserved1110 t s
  | .reserved1111 t => Sys2Proof.Machine.execReserved1111 t s
  | .idle => Sys2Proof.Machine.execIdle s
  | .p1Check => Sys2Proof.Machine.execP1Check s
  | .p2Seek => Sys2Proof.Machine.execP2Seek s
  | .p3LoadStart => Sys2Proof.Machine.execP3LoadStart s
  | .p4LoadEnd => Sys2Proof.Machine.execP4LoadEnd s
  | .p5Decode => Sys2Proof.Machine.execP5Decode s
  | .p6Advance => Sys2Proof.Machine.execP6Advance s
  | .sync0 => Sys2Proof.Machine.execSync0 s
  | .sync1 => Sys2Proof.Machine.execSync1 s
  | .sync2 => Sys2Proof.Machine.execSync2 s
  | .sync3 => Sys2Proof.Machine.execSync3 s
  | .sync4 => Sys2Proof.Machine.execSync4 s
  | .sync5 => Sys2Proof.Machine.execSync5 s
  | .sync6 => Sys2Proof.Machine.execSync6 s
  | .sync7 => Sys2Proof.Machine.execSync7 s
  | .classNone => Sys2Proof.Machine.execClassNone s
  | .classBeam => Sys2Proof.Machine.execClassBeam s
  | .classSync => Sys2Proof.Machine.execClassSync s

end Sys2Proof.Machine
end

