-- ==== Sys2Proof/Machine/Step.lean ====
section
/-! DEFINITION. Machine/Step.lean: one step of the machine: the next event word of the input, decoded and executed
(R48, R61). -/

namespace Sys2Proof.Machine

/-- One step. An ill-formed configuration is given no meaning (R7, log 13). With nothing to deliver the block does
nothing (R38, R157, log 3). -/
def step (s : State) : Host.Outcome State Fault Refusal :=
  if s.cfg.WF then
    match fetch s with
    | none => .next s
    | some (w, s') =>
      match decode s.cfg w with
      | .error e => .refused (refusalOf e)
      | .ok i => exec i s'
  else .refused .illFormedConfig

/-- `s` with the word of a table row as the next thing step runs (log 8). An event word is put first in the input. A
`cphase` value is not an event word: it is what STEP executes, so the sequencer is set to it, `updating` as R29 ties
it to the sequencer, and STEP is put first in the input. -/
def State.withFetchWord (s : State) (nbits w : Nat) : State :=
  if 8 < nbits then s.setInput (w :: s.input)
  else ((s.setPhase (phaseOfCode w)).setUpdating (phaseOfCode w != .idle)).setInput (stepWord s.cfg :: s.input)

end Sys2Proof.Machine
end

