-- ==== Sys2Proof/Machine/Trace.lean ====
section
/-! DEFINITION. Machine/Trace.lean: sequences of operations: a run of a list of them, and the pseudo-operations PULSE,
TICK and STEP n as the sequences they stand for (R48, R69). -/

namespace Sys2Proof.Machine

/-- Run operations one after the other; a refusal ends the run (R48, R158). -/
def runInstrs : List Instr → State → Out
  | [], s => .next s
  | i :: is, s =>
    match exec i s with
    | .next t => runInstrs is t
    | .fault r => .fault r
    | .refused r => .refused r

/-- The two edge operations, the PRODUCER's steps (R12, R62). -/
def isEdge : Instr → Bool
  | .edgeF _ | .edgeR _ => true
  | .reset | .setup | .poll | .getX | .getY | .isUpd | .beginTick | .stepTick => false
  | .reserved1010 _ | .reserved1011 _ | .reserved1100 _ => false
  | .reserved1101 _ | .reserved1110 _ | .reserved1111 _ => false
  | .idle | .p1Check | .p2Seek | .p3LoadStart | .p4LoadEnd | .p5Decode | .p6Advance => false
  | .sync0 | .sync1 | .sync2 | .sync3 | .sync4 | .sync5 | .sync6 | .sync7 => false
  | .classNone | .classBeam | .classSync => false

/-- Only edges. -/
abbrev EdgesOnly (is : List Instr) : Prop := ∀ i ∈ is, isEdge i = true

/-- The number of publishes in a sequence of edges: one for each falling edge (R82, glossary "Publish"). -/
def publishes : List Instr → Nat
  | [] => 0
  | .edgeF _ :: is => publishes is + 1
  | _ :: is => publishes is

/-- The two edges of one pulse, with their times. -/
def pulseEdges (rise fall : Ticks) : List Instr := [.edgeR rise, .edgeF fall]

/-- PULSE t, d (R69). -/
def pulse (c : Config) (t d : Ticks) : List Instr := pulseEdges t ((t + d) % 2 ^ c.W)

/-- The edges of pulses one after the other, each with its rise and its fall. -/
def pulseTrain (ps : List (Ticks × Ticks)) : List Instr := ps.flatMap (fun p => pulseEdges p.1 p.2)

/-- STEP n (R69). -/
def steps (n : Nat) : List Instr := List.replicate n .stepTick

/-- TICK with `n` STEPs: BEGIN and then STEP until `cphase` is IDLE (R69). -/
def tick (n : Nat) : List Instr := .beginTick :: steps n

end Sys2Proof.Machine
end

