-- ==== Sys2Proof/Safety.lean ====
section
/-! DEFINITION. Safety.lean: the agents (R11, R62), the invariant of the state, and what a run of the block is (R158). -/

namespace Sys2Proof.Machine

/-- Who takes a step (R11, R62); the environment issues RESET. -/
inductive Agent where
  | environment
  | producer
  | consumer
  | host
  deriving DecidableEq, Repr

/-- The agent of an operation (R62); no agent issues a reserved code (R64). -/
def agentOf : Instr → Option Agent
  | .reset => some .environment
  | .edgeF _ | .edgeR _ => some .producer
  | .poll | .beginTick | .stepTick => some .consumer
  | .idle | .p1Check | .p2Seek | .p3LoadStart | .p4LoadEnd | .p5Decode | .p6Advance => some .consumer
  | .sync0 | .sync1 | .sync2 | .sync3 | .sync4 | .sync5 | .sync6 | .sync7 => some .consumer
  | .classNone | .classBeam | .classSync => some .consumer
  | .setup | .getX | .getY | .isUpd => some .host
  | .reserved1010 _ | .reserved1011 _ | .reserved1100 _ => none
  | .reserved1101 _ | .reserved1110 _ | .reserved1111 _ => none

/-- A pattern of the format FLT has as many bits as the format (R28). -/
abbrev FltFormat.Fits (f : FltFormat) (v : FltBits) : Prop := v < 2 ^ (1 + f.expBits + f.fracBits)

/-- A returned float is a pattern of the format. -/
abbrev resultFits (f : FltFormat) : Result → Prop
  | .nothing | .bool _ => True
  | .float v => FltFormat.Fits f v

/-- The invariant: the configuration is well formed (R7), the ring's storage is canonical, lies inside the ring (R41)
and holds W-bit fields (R21), every register has its width (R20), and `updating` is 1 exactly when `cphase` is not IDLE
(R29). -/
structure State.WF (s : State) : Prop where
  cfg : s.cfg.WF
  ring : s.ring.wf
  ringCells : ∀ e ∈ s.ring, e.1 < 2 * s.cfg.capacity ∧ e.2 < 2 ^ s.cfg.W
  writeIndex : s.writeIndex < 2 ^ s.cfg.IW
  readIndex : s.readIndex < 2 ^ s.cfg.IW
  syncPulseStart : s.syncPulseStart < 2 ^ s.cfg.W
  angleSweep : FltFormat.Fits s.cfg.flt s.angleSweep
  angleCreep : FltFormat.Fits s.cfg.flt s.angleCreep
  cStart : s.cStart < 2 ^ s.cfg.W
  cEnd : s.cEnd < 2 ^ s.cfg.W
  result : resultFits s.cfg.flt s.result
  updating : s.updating = true ↔ s.cphase ≠ .idle

/-- A run of the block: a sequence of operations none of which is refused (R158). -/
def SafeRun (is : List Instr) (s : State) : Prop := ∃ t, runInstrs is s = .next t

end Sys2Proof.Machine
end

