-- ==== Sys2Proof/Certificates/Slice0/Obligations.lean ====
section
/-! DEFINITION. Certificates/Slice0/Obligations.lean: the statements for the provers. Each cites the rule it states. -/

open Sys2Proof Sys2Proof.Machine

/-! ### Encoding and decoding -/

/-- R61, R62, R63, R65, R66, R68: no bit of an encoding is dropped, for every row of the table and every operand. -/
def Obligations.DecodeInvertsEncode : Prop :=
  ∀ (c : Config) (i : Instr), i.WF c → decodeFormat c i.format (encode c i) = .ok i

/-- R61, R64: every word the decoder accepts is the one word of a well-formed instruction of that format. -/
def Obligations.EncodeInvertsDecode : Prop :=
  ∀ (c : Config) (f : Format) (w : Nat) (i : Instr), decodeFormat c f w = .ok i →
    i.format = f ∧ i.WF c ∧ encode c i = w

/-- 30_encoding.md section 5 and rules R65, R66, R68: the worked words at W = 32, and a word of each other format. -/
def Obligations.WorkedWordsDecode : Prop :=
  decode Config.default 0x000000000 = .ok .reset ∧ decode Config.default 0x100000000 = .ok .setup ∧
  decode Config.default 0x300000000 = .ok (.edgeR 0) ∧ decode Config.default 0x20000F424 = .ok (.edgeF 62500) ∧
  decode Config.default 0x3003D0900 = .ok (.edgeR 4000000) ∧ decode Config.default 0x2003D3010 = .ok (.edgeF 4010000) ∧
  decode Config.default 0x400000000 = .ok .poll ∧
  decode Config.default 0x500000000 = .ok .getX ∧ decode Config.default 0x600000000 = .ok .getY ∧
  decode Config.default 0x700000000 = .ok .isUpd ∧ decode Config.default 0x800000000 = .ok .beginTick ∧
  decode Config.default 0x900000000 = .ok .stepTick ∧ decode Config.default 0xA00000000 = .ok (.reserved1010 0) ∧
  decode Config.default 0x400000001 = .error .nonzeroOperand ∧
  decodePhase 5 = .ok .p5Decode ∧ decodeSyncCode 6 = .ok .sync6 ∧ decodeClass 1 = .ok .classBeam

/-- R64: (a) a reserved code is refused, (b) a word of one of the eight bare operations with a nonzero `t` is refused, and
(d) the legal words that are refused for the state they meet. A reserved code with a nonzero `t` falls under (a) and (b);
that it is ReservedOp and not NonzeroOperand is the model's reading (log 11, DEDUCED). -/
def Obligations.ReservedNonzeroAndUntimelyWordsAreRefused : Prop :=
  (∀ (s : State) (w : EventWord) (ws : List EventWord), s.cfg.WF → s.input = w :: ws →
    (10 ≤ w / 2 ^ s.cfg.W → w / 2 ^ s.cfg.W ≤ 15 → step s = .refused .reservedOp) ∧
    (w / 2 ^ s.cfg.W ≤ 9 → w / 2 ^ s.cfg.W ≠ 2 → w / 2 ^ s.cfg.W ≠ 3 → w % 2 ^ s.cfg.W ≠ 0 →
      step s = .refused .nonzeroOperand)) ∧
  (∀ s : State, s.enabled = true → exec .setup s = .refused .secondSetup) ∧
  (∀ s : State, s.cphase = .idle → exec .stepTick s = .refused .stepWhileIdle) ∧
  (∀ s : State, s.cphase ≠ .idle →
    exec .beginTick s = .refused .reentrantTick ∧ exec .poll s = .refused .reentrantTick ∧
    exec .getX s = .refused .accessorDuringTick ∧ exec .getY s = .refused .accessorDuringTick)

/-- R64 (a), R158: each reserved operation is refused as ReservedOp in every state. That this holds whatever its other
bits, and that it is not NonzeroOperand where they are not zero, is the model's reading (log 11, DEDUCED). -/
def Obligations.ReservedOperationsAreRefused : Prop :=
  ∀ (t : Nat) (s : State),
    exec (.reserved1010 t) s = .refused .reservedOp ∧ exec (.reserved1011 t) s = .refused .reservedOp ∧
    exec (.reserved1100 t) s = .refused .reservedOp ∧ exec (.reserved1101 t) s = .refused .reservedOp ∧
    exec (.reserved1110 t) s = .refused .reservedOp ∧ exec (.reserved1111 t) s = .refused .reservedOp

/-! ### The step -/

/-- R48, R61: a step takes the next event word off the input and runs the operation it decodes to, nothing more. -/
def Obligations.StepRunsTheDecodedOperation : Prop :=
  ∀ (s : State) (w : EventWord) (ws : List EventWord) (i : Instr),
    s.cfg.WF → s.input = w :: ws → decode s.cfg w = .ok i → step s = exec i (s.setInput ws)

/-- The model's choices of logs 3, 12 and 13: with nothing to deliver a step changes nothing, a word that decodes to
nothing is refused for the decoder's reason, and an ill-formed configuration is given no meaning (R7). -/
def Obligations.StepWithoutAnOperation : Prop :=
  (∀ s : State, s.cfg.WF → s.input = [] → step s = .next s) ∧
  (∀ (s : State) (w : EventWord) (ws : List EventWord) (e : DecodeError),
    s.cfg.WF → s.input = w :: ws → decode s.cfg w = .error e → step s = .refused (refusalOf e)) ∧
  (∀ s : State, ¬ s.cfg.WF → step s = .refused .illFormedConfig)

/-- R7, R95, D30: a table whose windows overlap, reach into the beam range or are empty is given no meaning. -/
def Obligations.OverlappingOrEmptyTablesAreRefused : Prop :=
  ∀ s : State,
    (∃ (k j : SyncCode) (d : Ticks), k ≠ j ∧ s.cfg.Matches k d ∧ s.cfg.Matches j d) ∨
    (∃ (k : SyncCode) (d : Ticks), d < s.cfg.beamCeiling ∧ s.cfg.Matches k d) ∨
    (∃ k : SyncCode, s.cfg.highOf k ≤ s.cfg.lowOf k + 1) →
    step s = .refused .illFormedConfig

/-- Logs 3 and 8: after a table word is placed, the very next step runs the row's instruction. -/
def Obligations.PlacedTableWordRunsNext : Prop :=
  (∀ (s : State) (w : Nat) (i : Instr), s.cfg = Config.default → decodeTableWord 40 w = some i →
    step (s.withFetchWord 40 w) = exec i s) ∧
  (∀ (s : State) (w : Nat) (i : Instr), s.cfg.WF → decodeTableWord 8 w = some i →
    step (s.withFetchWord 8 w) = exec i ((s.withFetchWord 8 w).setInput s.input))

/-- R48, R69: a stimulus trace, delivered word by word, runs exactly its operations in order, refusals included. -/
def Obligations.TraceRunsAsItsOperations : Prop :=
  ∀ (is : List Instr) (ws : List EventWord) (s : State), s.cfg.WF →
    (∀ i ∈ is, i.format = .ev ∧ i.WF s.cfg) →
    Sys2Proof.core.run is.length (s.setInput (is.map (encode s.cfg) ++ ws)) = runInstrs is (s.setInput ws)

/-! ### Reset and host control -/

/-- R37: the state after reset. -/
def Obligations.ResetStateHoldsTheResetValues : Prop :=
  (∀ (i : Index) (f : Field), slotRead State.reset i f = 0) ∧
  State.reset.writeIndex = 0 ∧ State.reset.readIndex = 0 ∧ State.reset.syncPulseStart = 0 ∧
  State.reset.activeAxis = .sweep ∧ State.reset.angle .sweep = 0x00000000 ∧ State.reset.angle .creep = 0x00000000 ∧
  State.reset.updating = false ∧ State.reset.enabled = false ∧ State.reset.cphase = .idle ∧
  State.reset.cStart = 0 ∧ State.reset.cEnd = 0 ∧ State.reset.cRet = false

/-- R160: RESET (op 0000) completes in every state, in the middle of a tick too, and leaves the values of R37; the
configuration constants are not touched and there is no result. -/
def Obligations.ResetOperationFromEveryState : Prop :=
  (∀ c : Config, decode c (0b0000 * 2 ^ c.W) = .ok .reset) ∧
  ∀ s : State, ∃ t, exec .reset s = .next t ∧ t.cfg = s.cfg ∧ t.result = .nothing ∧
    (∀ (i : Index) (f : Field), slotRead t i f = 0) ∧
    t.writeIndex = 0 ∧ t.readIndex = 0 ∧ t.syncPulseStart = 0 ∧ t.activeAxis = .sweep ∧
    t.angle .sweep = 0x00000000 ∧ t.angle .creep = 0x00000000 ∧ t.updating = false ∧ t.enabled = false ∧
    t.cphase = .idle ∧ t.cStart = 0 ∧ t.cEnd = 0 ∧ t.cRet = false

/-- R130: SETUP (op 0001) sets `enabled` and changes no other state, whatever `cphase` is; a second one is refused. -/
def Obligations.SetupEnablesOnce : Prop :=
  (∀ c : Config, decode c (0b0001 * 2 ^ c.W) = .ok .setup) ∧
  (∀ s : State, s.enabled = false → exec .setup s = .next { s with enabled := true, result := .nothing }) ∧
  (∀ s : State, s.enabled = true → exec .setup s = .refused .secondSetup)

/-- R131: ISUPD (op 0111) returns `updating` in every state and writes nothing; where `updating` agrees with the sequencer (R29)
it returns 1 exactly while a tick is in progress. -/
def Obligations.IsUpdReturnsUpdating : Prop :=
  (∀ c : Config, decode c (0b0111 * 2 ^ c.W) = .ok .isUpd) ∧
  (∀ s : State, exec .isUpd s = .next { s with result := .bool s.updating }) ∧
  (∀ s : State, s.WF → exec .isUpd s = .next { s with result := .bool (decide (s.cphase ≠ .idle)) })

/-- R123, R124: the accessors (op 0101 and 0110) return the angle of their axis and write nothing; during a tick they are refused. -/
def Obligations.AccessorsReturnTheirAxis : Prop :=
  (∀ c : Config, decode c (0b0101 * 2 ^ c.W) = .ok .getX ∧ decode c (0b0110 * 2 ^ c.W) = .ok .getY) ∧
  (∀ s : State, s.cphase = .idle →
    exec .getX s = .next { s with result := .float (s.angle .sweep) } ∧
    exec .getY s = .next { s with result := .float (s.angle .creep) }) ∧
  (∀ s : State, s.cphase ≠ .idle →
    exec .getX s = .refused .accessorDuringTick ∧ exec .getY s = .refused .accessorDuringTick)

/-! ### The producer -/

/-- R81: with `enabled = 1` EDGE.R (op 0011) stores `t` as the start of the slot at `writeIndex`; every other field of
the ring and every register keeps its value; there is no result. With `enabled = 0` it is a no-op. -/
def Obligations.RisingEdgeStoresStart : Prop :=
  (∀ (c : Config) (t : Ticks), t < 2 ^ c.W → decode c (0b0011 * 2 ^ c.W + t) = .ok (.edgeR t)) ∧
  (∀ (t : Ticks) (s : State), s.enabled = false → exec (.edgeR t) s = .next { s with result := .nothing }) ∧
  ∀ (t : Ticks) (s : State), s.ring.wf → s.enabled = true →
    ∃ s', exec (.edgeR t) s = .next s' ∧
      slotRead s' s.writeIndex .start = t ∧
      (∀ a, a ≠ slotAddr s.cfg s.writeIndex .start → s'.ring.read a = s.ring.read a) ∧
      s' = { s with ring := s'.ring, result := .nothing }

/-- R82: with `enabled = 1` EDGE.F (op 0010) stores `t` as the end of the slot at `writeIndex` and advances `writeIndex`
modulo 2^IW; every other field of the ring and every other register keeps its value; there is no result. With
`enabled = 0` it is a no-op. -/
def Obligations.FallingEdgeStoresEndAndPublishes : Prop :=
  (∀ (c : Config) (t : Ticks), t < 2 ^ c.W → decode c (0b0010 * 2 ^ c.W + t) = .ok (.edgeF t)) ∧
  (∀ (t : Ticks) (s : State), s.enabled = false → exec (.edgeF t) s = .next { s with result := .nothing }) ∧
  ∀ (t : Ticks) (s : State), s.ring.wf → s.enabled = true →
    ∃ s', exec (.edgeF t) s = .next s' ∧
      slotRead s' s.writeIndex .finish = t ∧
      (∀ a, a ≠ slotAddr s.cfg s.writeIndex .finish → s'.ring.read a = s.ring.read a) ∧
      s' = { s with ring := s'.ring, writeIndex := (s.writeIndex + 1) % 2 ^ s.cfg.IW, result := .nothing }

/-- R83: while `enabled = 0` an edge changes no state and has no result. -/
def Obligations.EdgesBeforeSetupChangeNothing : Prop :=
  ∀ (t : Ticks) (s : State), s.enabled = false →
    exec (.edgeR t) s = .next { s with result := .nothing } ∧ exec (.edgeF t) s = .next { s with result := .nothing }

/-- R86, R88: for alternating edges the pulses are stored in order, the n-th in slot `slotof(w + n)`; the newest
CAPACITY of them are in the ring, and `writeIndex` has advanced by their number. From reset w is 0. -/
def Obligations.AlternatingPulsesAreStoredInOrder : Prop :=
  ∀ (ps : List (Ticks × Ticks)) (s : State), s.WF → s.enabled = true →
    ∃ t, runInstrs (pulseTrain ps) s = .next t ∧
      t.writeIndex = (s.writeIndex + ps.length) % 2 ^ s.cfg.IW ∧
      ∀ (n : Nat) (h : n < ps.length), ps.length ≤ n + s.cfg.capacity →
        slotRead t (s.writeIndex + n) .start = ps[n].1 ∧ slotRead t (s.writeIndex + n) .finish = ps[n].2

/-- R166: after a multiple of 2^IW publishes since the last tick, the next tick reports no data and changes no register
of the decoder. -/
def Obligations.IndexAliasingReportsNoData : Prop :=
  ∀ (es : List Instr) (s : State), s.WF → s.enabled = true → s.cphase = .idle → s.readIndex = s.writeIndex →
    EdgesOnly es → publishes es % 2 ^ s.cfg.IW = 0 →
    ∃ t, runInstrs (es ++ [.poll]) s = .next t ∧ t.result = .bool false ∧ t.readIndex = s.readIndex ∧
      t.syncPulseStart = s.syncPulseStart ∧ t.activeAxis = s.activeAxis ∧
      (∀ a, t.angle a = s.angle a) ∧ t.cphase = .idle ∧ t.updating = false

/-- R51: what the producer does to the ring and to `writeIndex` depends on the edges, `enabled`, the ring, `writeIndex`
and the configuration only. -/
def Obligations.ProducerIgnoresTheConsumer : Prop :=
  ∀ (es : List Instr) (s s' : State), EdgesOnly es →
    s.cfg = s'.cfg → s.enabled = s'.enabled → s.ring = s'.ring → s.writeIndex = s'.writeIndex →
    ∃ t t', runInstrs es s = .next t ∧ runInstrs es s' = .next t' ∧ t.ring = t'.ring ∧ t.writeIndex = t'.writeIndex

/-! ### The consumer, operation by operation -/

/-- R101: BEGIN (op 1000) starts a tick; inside one it is refused. -/
def Obligations.BeginStartsATick : Prop :=
  (∀ c : Config, decode c (0b1000 * 2 ^ c.W) = .ok .beginTick) ∧
  (∀ s : State, s.cphase = .idle →
    exec .beginTick s = .next { s with updating := true, cphase := .p1, result := .nothing }) ∧
  (∀ s : State, s.cphase ≠ .idle → exec .beginTick s = .refused .reentrantTick)

/-- R102: STEP (op 1001) executes the phase that `cphase` names and moves to its successor; the result is that of P1 on
the path with no data and of P6, and there is none otherwise; with no tick in progress it is refused. That the row IDLE
is an instruction, refused in every state, is the model's choice (log 7). -/
def Obligations.StepRunsThePhaseOfTheSequencer : Prop :=
  (∀ c : Config, decode c (0b1001 * 2 ^ c.W) = .ok .stepTick) ∧
  ∀ s : State,
    exec .idle s = .refused .stepWhileIdle ∧
    (s.cphase = .idle → exec .stepTick s = .refused .stepWhileIdle) ∧
    (s.cphase = .p1 → ∃ t, exec .stepTick s = .next t ∧ exec .p1Check s = .next t ∧
      (s.readIndex = s.writeIndex → t.cphase = .idle ∧ t.result = .bool false) ∧
      (s.readIndex ≠ s.writeIndex → t.cphase = .p2 ∧ t.result = .nothing)) ∧
    (s.cphase = .p2 → ∃ t, exec .stepTick s = .next t ∧ exec .p2Seek s = .next t ∧
      t.cphase = .p3 ∧ t.result = .nothing) ∧
    (s.cphase = .p3 → ∃ t, exec .stepTick s = .next t ∧ exec .p3LoadStart s = .next t ∧
      t.cphase = .p4 ∧ t.result = .nothing) ∧
    (s.cphase = .p4 → ∃ t, exec .stepTick s = .next t ∧ exec .p4LoadEnd s = .next t ∧
      t.cphase = .p5 ∧ t.result = .nothing) ∧
    (s.cphase = .p5 → ∃ t, exec .stepTick s = .next t ∧ exec .p5Decode s = .next t ∧
      t.cphase = .p6 ∧ t.result = .nothing) ∧
    (s.cphase = .p6 → ∃ t, exec .stepTick s = .next t ∧ exec .p6Advance s = .next t ∧
      t.cphase = .idle ∧ t.result = .bool s.cRet)

/-- R103: phase P1. -/
def Obligations.CheckPhaseComparesTheIndices : Prop :=
  (∀ s : State, s.readIndex = s.writeIndex →
    exec .p1Check s = .next { s with updating := false, cphase := .idle, result := .bool false }) ∧
  (∀ s : State, s.readIndex ≠ s.writeIndex → exec .p1Check s = .next { s with cphase := .p2, result := .nothing })

/-- R104: phase P2 moves `readIndex` to the slot just behind `writeIndex`, modulo 2^IW. -/
def Obligations.SeekPhaseTakesTheNewestRecord : Prop :=
  ∀ s : State, ∃ t, exec .p2Seek s = .next t ∧
    (t.readIndex : Int) = ((s.writeIndex : Int) - 1) % (2 ^ s.cfg.IW : Nat) ∧
    t = { s with readIndex := t.readIndex, cphase := .p3, result := .nothing }

/-- R105, R106: phases P3 and P4 load the two fields of the chosen slot. After P4 the tick reads no shared state again:
with any other ring and `writeIndex` the phases P5 and P6 do the same (for edges, LateEdgesCommuteWithTheTick). -/
def Obligations.LoadPhasesReadTheChosenSlot : Prop :=
  (∀ s : State,
    exec .p3LoadStart s =
      .next { s with cStart := s.ring.read (2 * (s.readIndex % 2 ^ s.cfg.K)), cphase := .p4, result := .nothing } ∧
    exec .p4LoadEnd s =
      .next { s with cEnd := s.ring.read (2 * (s.readIndex % 2 ^ s.cfg.K) + 1), cphase := .p5, result := .nothing }) ∧
  (∀ (s : State) (m : Memory) (w : Index), (s.cphase = .p5 ∨ s.cphase = .p6) →
    ∃ t, exec .stepTick s = .next t ∧
      exec .stepTick { s with ring := m, writeIndex := w } = .next { t with ring := m, writeIndex := w })

/-- R107 to R111: phase P5, arm by arm. `d` is the duration and `rel` the position after the origin, both modulo 2^W. -/
def Obligations.DecodePhaseTakesTheArmOfTheClass : Prop :=
  ∀ (s : State) (d rel : Ticks),
    (d : Int) = ((s.cEnd : Int) - s.cStart) % (2 ^ s.cfg.W : Nat) →
    (rel : Int) = ((s.cStart : Int) - s.syncPulseStart) % (2 ^ s.cfg.W : Nat) →
    (∀ k : SyncCode, classify s.cfg d = .sync k → k.getLsbD 2 = false →
      exec .p5Decode s = .next { s with
        cRet := false, cphase := .p6, result := .nothing
        syncPulseStart := s.cStart, activeAxis := if k.getLsbD 0 then .creep else .sweep }) ∧
    (∀ k : SyncCode, classify s.cfg d = .sync k → k.getLsbD 2 = true →
      exec .p5Decode s = .next { s with cRet := false, cphase := .p6, result := .nothing }) ∧
    (classify s.cfg d = .beam → (rel < s.cfg.deadZone ∨ s.cfg.windowMax < rel) →
      exec .p5Decode s = .next { s with cRet := false, cphase := .p6, result := .nothing }) ∧
    (classify s.cfg d = .beam → s.cfg.deadZone ≤ rel → rel ≤ s.cfg.windowMax →
      ∃ t, exec .p5Decode s = .next t ∧
        t.angle s.activeAxis = angleOf s.cfg (rel - s.cfg.deadZone) ∧
        (∀ a, a ≠ s.activeAxis → t.angle a = s.angle a) ∧
        t = { s with
          cRet := true, cphase := .p6, result := .nothing
          angleSweep := t.angleSweep, angleCreep := t.angleCreep }) ∧
    (classify s.cfg d = .unclassified →
      exec .p5Decode s = .next { s with cRet := false, cphase := .p6, result := .nothing })

/-- R112: phase P6 advances `readIndex` and ends the tick with the latched result. -/
def Obligations.AdvancePhaseEndsTheTick : Prop :=
  ∀ s : State, exec .p6Advance s = .next { s with
    readIndex := (s.readIndex + 1) % 2 ^ s.cfg.IW, updating := false, cphase := .idle, result := .bool s.cRet }

/-- R65, R108, R109: what each sync code does as an arm of P5, from the latched start. -/
def Obligations.SyncCodeRowsSetTheOriginOrNothing : Prop :=
  ∀ s : State,
    exec .sync0 s = .next { s with syncPulseStart := s.cStart, activeAxis := .sweep } ∧
    exec .sync1 s = .next { s with syncPulseStart := s.cStart, activeAxis := .creep } ∧
    exec .sync2 s = .next { s with syncPulseStart := s.cStart, activeAxis := .sweep } ∧
    exec .sync3 s = .next { s with syncPulseStart := s.cStart, activeAxis := .creep } ∧
    exec .sync4 s = .next s ∧ exec .sync5 s = .next s ∧ exec .sync6 s = .next s ∧ exec .sync7 s = .next s

/-- R107, R110, R111: what each pulse class does as an arm of P5, from the latches. For a record whose class is not SYNC
the row CLASS.SYNC takes code 0 (R66, the model's choice of log 7). -/
def Obligations.ClassRowsTakeTheirArm : Prop :=
  ∀ (s : State) (d rel : Ticks),
    (d : Int) = ((s.cEnd : Int) - s.cStart) % (2 ^ s.cfg.W : Nat) →
    (rel : Int) = ((s.cStart : Int) - s.syncPulseStart) % (2 ^ s.cfg.W : Nat) →
    exec .classNone s = .next s ∧
    ((rel < s.cfg.deadZone ∨ s.cfg.windowMax < rel) → exec .classBeam s = .next s) ∧
    (s.cfg.deadZone ≤ rel → rel ≤ s.cfg.windowMax →
      ∃ t, exec .classBeam s = .next t ∧
        t.angle s.activeAxis = angleOf s.cfg (rel - s.cfg.deadZone) ∧
        (∀ a, a ≠ s.activeAxis → t.angle a = s.angle a) ∧
        t = { s with cRet := true, angleSweep := t.angleSweep, angleCreep := t.angleCreep }) ∧
    (∀ k : SyncCode, classify s.cfg d = .sync k → k.getLsbD 2 = true → exec .classSync s = .next s) ∧
    (∀ k : SyncCode, classify s.cfg d = .sync k → k.getLsbD 2 = false →
      exec .classSync s =
        .next { s with syncPulseStart := s.cStart, activeAxis := if k.getLsbD 0 then .creep else .sweep }) ∧
    ((∀ k : SyncCode, classify s.cfg d ≠ .sync k) →
      exec .classSync s = .next { s with syncPulseStart := s.cStart, activeAxis := .sweep })

/-! ### The consumer, whole ticks -/

/-- R113: POLL is BEGIN followed by STEP until `cphase` is IDLE: one STEP with no data, six otherwise; it completes
exactly when no tick is in progress and ends with none in progress. -/
def Obligations.PollIsBeginAndStepsUntilIdle : Prop :=
  (∀ s : State, s.cphase = .idle → s.readIndex = s.writeIndex →
    ∃ t, exec .poll s = .next t ∧ runInstrs (tick 1) s = .next t ∧ t.cphase = .idle ∧ t.updating = false) ∧
  (∀ s : State, s.cphase = .idle → s.readIndex ≠ s.writeIndex →
    ∃ t, exec .poll s = .next t ∧ runInstrs (tick 6) s = .next t ∧ t.cphase = .idle ∧ t.updating = false ∧
      ∀ n, n < 6 → ∃ t', runInstrs (tick n) s = .next t' ∧ t'.cphase ≠ .idle) ∧
  (∀ s : State, s.cphase ≠ .idle → exec .poll s = .refused .reentrantTick)

/-- R104, R113, R118: a POLL after a pulse decodes exactly that pulse, the newest record, and leaves `readIndex` at
`writeIndex`. -/
def Obligations.PollDecodesTheNewestRecord : Prop :=
  ∀ (rise fall : Ticks) (s : State), s.WF → s.enabled = true → s.cphase = .idle →
    s.readIndex ≠ (s.writeIndex + 1) % 2 ^ s.cfg.IW →
    ∃ t, runInstrs (pulseEdges rise fall ++ [.poll]) s = .next t ∧
      t.cStart = rise ∧ t.cEnd = fall ∧ t.readIndex = t.writeIndex ∧
      t.writeIndex = (s.writeIndex + 1) % 2 ^ s.cfg.IW ∧ t.cphase = .idle ∧ t.updating = false

/-- R116: the result is 1 exactly when the tick stored an angle (R110); otherwise it is 0 and both angles keep their
values. The record is the newest one, `rel` its position after the origin. -/
def Obligations.PollReportsExactlyTheStoredAngle : Prop :=
  ∀ s : State, s.cphase = .idle → ∃ t, exec .poll s = .next t ∧
    let newest := decMod s.cfg.IW s.writeIndex
    let start := slotRead s newest .start
    let rel := subMod s.cfg.W start s.syncPulseStart
    let stored := s.readIndex ≠ s.writeIndex ∧
      classify s.cfg (subMod s.cfg.W (slotRead s newest .finish) start) = .beam ∧
      s.cfg.deadZone ≤ rel ∧ rel ≤ s.cfg.windowMax
    (stored → t.result = .bool true ∧ t.angle s.activeAxis = angleOf s.cfg (rel - s.cfg.deadZone) ∧
      ∀ a, a ≠ s.activeAxis → t.angle a = s.angle a) ∧
    (¬ stored → t.result = .bool false ∧ ∀ a, t.angle a = s.angle a)

/-- R109: a tick that decodes a sync pulse with the skip bit set alters neither the origin nor the axis nor an angle; it
returns 0 and consumes the record. -/
def Obligations.SkippedSyncAltersNoDecoderState : Prop :=
  ∀ (s : State) (k : SyncCode), s.WF → s.cphase = .idle → s.readIndex ≠ s.writeIndex →
    classify s.cfg (subMod s.cfg.W (slotRead s (decMod s.cfg.IW s.writeIndex) .finish)
      (slotRead s (decMod s.cfg.IW s.writeIndex) .start)) = .sync k →
    k.getLsbD 2 = true →
    ∃ t, exec .poll s = .next t ∧ t.result = .bool false ∧ t.syncPulseStart = s.syncPulseStart ∧
      t.activeAxis = s.activeAxis ∧ (∀ a, t.angle a = s.angle a) ∧ t.readIndex = s.writeIndex

/-- R108, R110, R113, R120 and the fourth property of 95_test_vectors.md (S4): a non-skipped sync pulse at `origin` and
then a beam pulse that rises `DEAD_ZONE + k` ticks later, each followed by a POLL, give the angle of `k` on the sync's
axis and leave the other axis alone, for every configuration and every origin, across a wrap of the time source too. -/
def Obligations.SyncThenBeamGivesTheAngle : Prop :=
  ∀ (s : State) (origin width k beamWidth : Ticks) (code : SyncCode),
    s.WF → s.enabled = true → s.cphase = .idle → s.readIndex ≠ (s.writeIndex + 1) % 2 ^ s.cfg.IW →
    origin < 2 ^ s.cfg.W → width < 2 ^ s.cfg.W → beamWidth < 2 ^ s.cfg.W → k ≤ s.cfg.span →
    classify s.cfg width = .sync code → code.getLsbD 2 = false → classify s.cfg beamWidth = .beam →
    let axis : Axis := if code.getLsbD 0 then .creep else .sweep
    ∃ t, runInstrs (pulse s.cfg origin width ++ [.poll] ++
        pulse s.cfg ((origin + s.cfg.deadZone + k) % 2 ^ s.cfg.W) beamWidth ++ [.poll]) s = .next t ∧
      t.result = .bool true ∧ t.syncPulseStart = origin ∧ t.activeAxis = axis ∧
      t.angle axis = angleOf s.cfg k ∧ ∀ a, a ≠ axis → t.angle a = s.angle a

/-- R171: after bring-up, with no sync ever seen, a beam whose raw timestamp lies in the window stores an angle on the
sweep axis, measured from the reset origin 0. -/
def Obligations.BeamBeforeAnySyncIsMeasuredFromReset : Prop :=
  ∀ (c : Config) (rise fall : Ticks), c.WF → c.deadZone ≤ rise → rise ≤ c.windowMax → fall < 2 ^ c.W →
    classify c (subMod c.W fall rise) = .beam →
    ∃ t, runInstrs ([.reset, .setup] ++ pulseEdges rise fall ++ [.poll]) { State.reset with cfg := c } = .next t ∧
      t.result = .bool true ∧ t.angle .sweep = angleOf c (rise - c.deadZone) ∧ t.angle .creep = 0

/-- R159: every tick ends within six STEPs, whatever edges fall before each of them. -/
def Obligations.EveryTickEndsWithinSixSteps : Prop :=
  ∀ (s : State) (edges : Nat → List Instr), s.cphase ≠ .idle → (∀ n, EdgesOnly (edges n)) →
    ∃ n t, 1 ≤ n ∧ n ≤ 6 ∧
      runInstrs ((List.range n).flatMap (fun m => edges m ++ [.stepTick])) s = .next t ∧ t.cphase = .idle

/-! ### Interleaving of the two agents -/

/-- R117: a stepped tick, with edges between its phases, leaves the same state and returns the same result as a POLL
issued at the position of its P2, provided (i) fewer than CAPACITY - 1 publishes fall between P2 and P4 and (ii) that
POLL would find data. The result port is compared at the end of the two ticks. -/
def Obligations.SteppedTickEqualsAPollAtItsSeek : Prop :=
  ∀ (s : State) (e2 e3 e4 e5 : List Instr), s.WF → s.cphase = .p2 → s.readIndex ≠ s.writeIndex →
    EdgesOnly e2 → EdgesOnly e3 → EdgesOnly e4 → EdgesOnly e5 →
    publishes e2 + publishes e3 < s.cfg.capacity - 1 →
    ∃ t p t',
      runInstrs ([.stepTick] ++ e2 ++ [.stepTick] ++ e3 ++ [.stepTick] ++ e4 ++ [.stepTick] ++ e5 ++ [.stepTick]) s
        = .next t ∧
      exec .poll { s with cphase := .idle, updating := false } = .next p ∧
      runInstrs (e2 ++ e3 ++ e4 ++ e5) p = .next t' ∧
      t = { t' with result := t.result } ∧ t.result = p.result

/-- R106, R117 (c): after P4 an edge commutes with the next phase of the tick, up to the result port. -/
def Obligations.LateEdgesCommuteWithTheTick : Prop :=
  ∀ (s : State) (e : Instr), isEdge e = true → (s.cphase = .p5 ∨ s.cphase = .p6) →
    ∃ t t', runInstrs [e, .stepTick] s = .next t ∧ runInstrs [.stepTick, e] s = .next t' ∧
      t = { t' with result := t.result }

/-- R52, R104, R117 (a): P2 loads `writeIndex` anew, so publishes between P1 and P2 make it choose the newer record. -/
def Obligations.SeekTakesAPublishAfterTheCheck : Prop :=
  ∀ (s : State) (es : List Instr), s.WF → s.enabled = true → s.cphase = .p1 → s.readIndex ≠ s.writeIndex →
    EdgesOnly es →
    ∃ t, runInstrs ([.stepTick] ++ es ++ [.stepTick]) s = .next t ∧ t.cphase = .p3 ∧
      t.writeIndex = (s.writeIndex + publishes es) % 2 ^ s.cfg.IW ∧
      (t.readIndex : Int) = ((s.writeIndex : Int) + publishes es - 1) % (2 ^ s.cfg.IW : Nat)

/-- R53 (b), R164 and vector V-C7: with a ring of two slots, a tick that is lapped between P3 and P4 decodes a sync that
no pulse was: the pulses last 10, 10000, 10 and 12500 ticks, all beams. -/
def Obligations.OverrunCanMixTwoPulses : Prop :=
  ∃ t, runInstrs ([.reset, .setup] ++ pulseEdges 0 10 ++ [.poll] ++ pulseEdges 100000 110000 ++
      [.beginTick, .stepTick, .stepTick, .stepTick] ++ pulseEdges 120000 120010 ++ pulseEdges 150000 162500 ++
      [.stepTick, .stepTick, .stepTick]) { State.reset with cfg := { Config.default with K := 1, IW := 1 } } = .next t ∧
    t.syncPulseStart = 100000 ∧ t.cEnd = 162500 ∧ t.activeAxis = .sweep ∧ t.cphase = .idle

/-! ### Whole-machine rules -/

/-- R35: who may write what. Producer operations write the ring and `writeIndex`; consumer operations never write them
nor `enabled`; host operations write `enabled` and nothing else; no operation writes the configuration. -/
def Obligations.EachAgentWritesOnlyItsOwnState : Prop :=
  ∀ (i : Instr) (s t : State), exec i s = .next t →
    t.cfg = s.cfg ∧ t.input = s.input ∧
    (agentOf i = some .producer →
      t = { s with ring := t.ring, writeIndex := t.writeIndex, result := t.result }) ∧
    (agentOf i = some .consumer → t.ring = s.ring ∧ t.writeIndex = s.writeIndex ∧ t.enabled = s.enabled) ∧
    (agentOf i = some .host → t = { s with enabled := t.enabled, result := t.result })

/-- R21, R24, R26 to R32: for each register of R20, the only operations that change it. -/
def Obligations.RegistersChangeOnlyByTheirOperations : Prop :=
  ∀ (i : Instr) (s t : State), exec i s = .next t → i ≠ .reset →
    (t.ring ≠ s.ring → isEdge i = true) ∧
    (t.writeIndex ≠ s.writeIndex → ∃ x, i = .edgeF x) ∧
    (t.readIndex ≠ s.readIndex → i ∈ [.poll, .stepTick, .p2Seek, .p6Advance]) ∧
    (t.syncPulseStart ≠ s.syncPulseStart →
      i ∈ [.poll, .stepTick, .p5Decode, .sync0, .sync1, .sync2, .sync3, .classSync]) ∧
    (t.activeAxis ≠ s.activeAxis →
      i ∈ [.poll, .stepTick, .p5Decode, .sync0, .sync1, .sync2, .sync3, .classSync]) ∧
    (t.angle .sweep ≠ s.angle .sweep → i ∈ [.poll, .stepTick, .p5Decode, .classBeam]) ∧
    (t.angle .creep ≠ s.angle .creep → i ∈ [.poll, .stepTick, .p5Decode, .classBeam]) ∧
    (t.enabled ≠ s.enabled → i = .setup ∧ t.enabled = true) ∧
    (t.cphase ≠ s.cphase →
      i ∈ [.beginTick, .stepTick, .p1Check, .p2Seek, .p3LoadStart, .p4LoadEnd, .p5Decode, .p6Advance]) ∧
    (t.updating ≠ s.updating → i ∈ [.poll, .beginTick, .stepTick, .p1Check, .p6Advance]) ∧
    (t.cStart ≠ s.cStart → i ∈ [.poll, .stepTick, .p3LoadStart]) ∧
    (t.cEnd ≠ s.cEnd → i ∈ [.poll, .stepTick, .p4LoadEnd]) ∧
    (t.cRet ≠ s.cRet → i ∈ [.poll, .stepTick, .p5Decode, .classBeam])

/-- R28, R126, R127: an angle changes only by RESET or by the store of a beam on the active axis, which sets `c_ret` and
leaves the origin and the axis alone. -/
def Obligations.AnglesChangeOnlyByABeamStoreOrReset : Prop :=
  ∀ (i : Instr) (s t : State) (a : Axis), exec i s = .next t → t.angle a ≠ s.angle a →
    i = .reset ∨
    (i ∈ [.poll, .stepTick, .p5Decode, .classBeam] ∧ a = s.activeAxis ∧ t.cRet = true ∧
      t.activeAxis = s.activeAxis ∧ t.syncPulseStart = s.syncPulseStart)

/-- R26, R27, R115: the origin and the axis change only by RESET or by a sync pulse without the skip bit: the record
decoded, which the latches hold, is one, the origin becomes its start, the axis that of its code, and no angle changes.
The rows SYNC0 to SYNC3 and CLASS.SYNC, taken by themselves, are the model's choice of log 7. -/
def Obligations.OriginAndAxisChangeOnlyBySyncOrReset : Prop :=
  ∀ (i : Instr) (s t : State), exec i s = .next t →
    (t.syncPulseStart ≠ s.syncPulseStart ∨ t.activeAxis ≠ s.activeAxis) →
    i = .reset ∨
    (t.syncPulseStart = t.cStart ∧ (∀ a, t.angle a = s.angle a) ∧
      let latched := classify t.cfg (subMod t.cfg.W t.cEnd t.cStart)
      let axisOf (k : SyncCode) : Axis := if k.getLsbD 0 then .creep else .sweep
      (i ∈ [.poll, .stepTick, .p5Decode] ∧
        ∃ k : SyncCode, latched = .sync k ∧ k.getLsbD 2 = false ∧ t.activeAxis = axisOf k) ∨
      (i ∈ [.sync0, .sync2] ∧ t.activeAxis = .sweep) ∨ (i ∈ [.sync1, .sync3] ∧ t.activeAxis = .creep) ∨
      (i = .classSync ∧ (∀ k : SyncCode, latched = .sync k → k.getLsbD 2 = false ∧ t.activeAxis = axisOf k) ∧
        ((∀ k : SyncCode, latched ≠ .sync k) → t.activeAxis = .sweep)))

/-- R158: the block never faults, and an operation is refused exactly for the listed reason in the listed case; RESET,
the edges and ISUPD are never refused. Two clauses are the model's: a reserved code is ReservedOp whatever its `t` field
(log 11, DEDUCED), and the row IDLE is refused as StepWhileIdle in every state (log 7, DESIGN CHOICE). -/
def Obligations.RefusalsAreExactlyTheListed : Prop :=
  ∀ (i : Instr) (s : State),
    (∀ f, exec i s ≠ .fault f) ∧
    ∀ r, exec i s = .refused r ↔
      (r = .reservedOp ∧ i.format = .ev ∧ 10 ≤ i.code) ∨
      (r = .secondSetup ∧ i = .setup ∧ s.enabled = true) ∨
      (r = .reentrantTick ∧ (i = .beginTick ∨ i = .poll) ∧ s.cphase ≠ .idle) ∨
      (r = .stepWhileIdle ∧ (i = .stepTick ∧ s.cphase = .idle ∨ i = .idle)) ∨
      (r = .accessorDuringTick ∧ (i = .getX ∨ i = .getY) ∧ s.cphase ≠ .idle)

/-- R29: every operation keeps the invariant that `updating` is 1 exactly when `cphase` is not IDLE. -/
def Obligations.UpdatingTracksTheSequencer : Prop :=
  ∀ (i : Instr) (s t : State), i.format = .ev → (s.updating = true ↔ s.cphase ≠ .idle) → exec i s = .next t →
    (t.updating = true ↔ t.cphase ≠ .idle)

/-- R37: the invariant of Safety.lean holds at reset. -/
def Obligations.ResetMeetsTheInvariant : Prop := State.reset.WF

/-- R20, R21, R29, R41, R43: every step keeps the invariant: the ring's storage is canonical and inside the ring, every
register keeps its width, and `updating` agrees with the sequencer. -/
def Obligations.EveryStepKeepsTheInvariant : Prop :=
  ∀ s t : State, s.WF → step s = .next t → t.WF

/-! ### The classifier -/

/-- R91, R92, R93: the classifier answers the least code whose window strictly contains the duration, BEAM below the
ceiling where none does, and NONE otherwise, on any table. -/
def Obligations.ClassifierAnswersTheLeastWindow : Prop :=
  ∀ (c : Config) (d : Ticks),
    (∀ k : SyncCode, classify c d = .sync k ↔
      (c.lowOf k < d ∧ d < c.highOf k) ∧ ∀ j : SyncCode, j.toNat < k.toNat → ¬ (c.lowOf j < d ∧ d < c.highOf j)) ∧
    (classify c d = .beam ↔ (∀ k : SyncCode, ¬ (c.lowOf k < d ∧ d < c.highOf k)) ∧ d < c.beamCeiling) ∧
    (classify c d = .unclassified ↔ (∀ k : SyncCode, ¬ (c.lowOf k < d ∧ d < c.highOf k)) ∧ c.beamCeiling ≤ d)

/-- R92, R95: on a well-formed table at most one window matches, so a duration in a window has that code, and every
duration below the ceiling is a beam. -/
def Obligations.WellFormedTablesMatchOnce : Prop :=
  ∀ c : Config, c.WF →
    (∀ (k : SyncCode) (d : Ticks), c.Matches k d → classify c d = .sync k) ∧
    (∀ d : Ticks, d < c.beamCeiling → classify c d = .beam)

/-- R97: the partition of the duration axis under the default table. -/
def Obligations.DefaultTablePartitionsTheDurations : Prop :=
  ∀ d : Ticks, d < 2 ^ 32 → classify Config.default d =
    if d ≤ 49999 then .beam
    else if d ≤ 57500 then .unclassified else if d ≤ 67499 then .sync 0
    else if d ≤ 67916 then .unclassified else if d ≤ 77915 then .sync 1
    else if d ≤ 78333 then .unclassified else if d ≤ 88332 then .sync 2
    else if d ≤ 88750 then .unclassified else if d ≤ 98749 then .sync 3
    else if d ≤ 99166 then .unclassified else if d ≤ 109165 then .sync 4
    else if d ≤ 109583 then .unclassified else if d ≤ 119582 then .sync 5
    else if d ≤ 120000 then .unclassified else if d ≤ 129999 then .sync 6
    else if d ≤ 130416 then .unclassified else if d ≤ 140415 then .sync 7
    else .unclassified

/-- R6, R8, R95, R96: the default configuration scaled by any unit that fits is well formed. -/
def Obligations.ScaledConfigurationsAreWellFormed : Prop :=
  ∀ u : Nat, 1 ≤ u → 6777777 * u ≤ 2 ^ 32 - 1 → (Config.ofUnit u).WF

/-- R8: the windows and the ceiling scale with the unit, so a scaled duration keeps its class. -/
def Obligations.ClassificationScalesWithTheUnit : Prop :=
  ∀ u d : Nat, 1 ≤ u → classify (Config.ofUnit u) (d * u) = classify Config.default d

/-! ### The angle converter -/

/-- R10, R121: the rounding of the format is to a nearest representable number, and where two are equally near, to the
one whose last place is even. -/
def Obligations.RoundingIsToNearestTiesToEven : Prop :=
  ∀ (f : FltFormat) (n d : Nat), 0 < d →
    FltRepresentable f (fltRound f n d) ∧
    ∀ m : Nat, FltRepresentable f m →
      ((fltRound f n d * d : Nat) - n : Int).natAbs ≤ ((m * d : Nat) - n : Int).natAbs ∧
      (((fltRound f n d * d : Nat) - n : Int).natAbs = ((m * d : Nat) - n : Int).natAbs → m ≠ fltRound f n d →
        fltRound f n d / 2 ^ (Nat.log2 (n / d) - f.fracBits) % 2 = 0)

/-- R122 (a): the end points are exactly -60 and +60, in every format and with the patterns of binary32. -/
def Obligations.AngleEndpointsAreExact : Prop :=
  ∀ c : Config, c.WF →
    fltValue c.flt (angleOf c 0) = -(60 * fltOne c.flt : Nat) ∧
    fltValue c.flt (angleOf c c.span) = (60 * fltOne c.flt : Nat) ∧
    (c.flt = FltFormat.binary32 → angleOf c 0 = 0xC2700000 ∧ angleOf c c.span = 0x42700000)

/-- R122 (c): every angle lies in [-60, +60], free values included, and is a pattern of the format. -/
def Obligations.AngleStaysInTheField : Prop :=
  ∀ (c : Config) (k : Nat), c.WF → k ≤ c.span →
    (fltValue c.flt (angleOf c k)).natAbs ≤ 60 * fltOne c.flt ∧ FltFormat.Fits c.flt (angleOf c k)

/-- R120, R122 (b): with the default SPAN the absolute error against the real-valued mapping is below 0.00001 degrees;
one degree is 2^149 units. -/
def Obligations.AngleErrorIsBelowTheTolerance : Prop :=
  ∀ k : Nat, k ≤ 5555555 →
    (fltValue FltFormat.binary32 (angleOf Config.default k) * 5555555 -
      ((k : Int) * 120 - 60 * 5555555) * (2 : Int) ^ 149).natAbs * 100000 < 5555555 * 2 ^ 149

/-- 95_test_vectors.md V-A ("each rounded operation of rule R121 is monotone"): a later beam never has a smaller angle,
wherever SPAN does not round to infinity. -/
def Obligations.AngleIsMonotone : Prop :=
  ∀ (c : Config) (k j : Nat), c.WF → fltOverflows c.flt (fltOfNat c.flt c.span) = false → k ≤ j → j ≤ c.span →
    fltValue c.flt (angleOf c k) ≤ fltValue c.flt (angleOf c j)
end

