-- ==== Sys2Proof/Laws/Angle.lean ====
section
/-! SUPPORT. Laws/Angle.lean: the rounding of R10 and R121: between the two neighbours, exact on multiples, monotone. -/

namespace Sys2Proof.Machine

theorem le_nearestEven (n d : Nat) : n / d ≤ nearestEven n d := by
  rw [nearestEven]; split
  · exact le_rfl
  · split <;> omega

theorem nearestEven_le (n d : Nat) : nearestEven n d ≤ n / d + 1 := by
  rw [nearestEven]; split
  · omega
  · split <;> omega

/-- A multiple is its own nearest. -/
theorem nearestEven_mul {d : Nat} (hd : 0 < d) (q : Nat) : nearestEven (q * d) d = q := by
  rw [nearestEven, Nat.mul_mod_left, Nat.mul_div_cancel q hd, if_pos (by omega)]

/-- Rounding is monotone. -/
theorem nearestEven_mono {n m : Nat} (d : Nat) (h : n ≤ m) : nearestEven n d ≤ nearestEven m d := by
  rcases Nat.lt_or_ge (n / d) (m / d) with hlt | hge
  · exact le_trans (nearestEven_le n d) (le_trans hlt (le_nearestEven m d))
  · have hq : n / d = m / d := le_antisymm (Nat.div_le_div_right h) hge
    have hr : n % d ≤ m % d := by
      have hn := Nat.div_add_mod n d
      have hm := Nat.div_add_mod m d
      rw [hq] at hn
      omega
    rw [nearestEven, nearestEven, hq]
    split
    · split
      · exact le_rfl
      · split <;> omega
    · split
      · rw [if_neg (by omega), if_pos (by omega)]
      · rw [if_neg (by omega)]
        split <;> omega

/-- A quotient that is a multiple of its own unit in the last place is not changed by the rounding. -/
theorem fltRound_exact (f : FltFormat) {q d : Nat} (hd : 0 < d) (m : Nat)
    (h : q = m * 2 ^ (Nat.log2 q - f.fracBits)) : fltRound f (q * d) d = q := by
  have hu : 0 < d * 2 ^ (Nat.log2 q - f.fracBits) := Nat.mul_pos hd (Nat.two_pow_pos _)
  have hq : q * d = m * (d * 2 ^ (Nat.log2 q - f.fracBits)) := by
    conv_lhs => rw [h]
    ring
  rw [fltRound, Nat.mul_div_cancel q hd]
  show nearestEven (q * d) (d * 2 ^ (Nat.log2 q - f.fracBits)) * 2 ^ (Nat.log2 q - f.fracBits) = q
  rw [hq, nearestEven_mul hu, ← h]

end Sys2Proof.Machine
end

