-- ==== Sys2Proof/Laws/Arith.lean ====
section
/-! SUPPORT. Laws/Arith.lean: the modular arithmetic of R9 against the integers, and the slots of indices (R41). -/

namespace Sys2Proof.Machine

theorem subMod_lt (w a b : Nat) : subMod w a b < 2 ^ w := Nat.mod_lt _ (Nat.two_pow_pos w)

theorem incMod_lt (w a : Nat) : incMod w a < 2 ^ w := Nat.mod_lt _ (Nat.two_pow_pos w)

theorem decMod_lt (w a : Nat) : decMod w a < 2 ^ w := subMod_lt w a 1

/-- R9: `a -_w b` is the non-negative remainder of the integer difference. -/
theorem subMod_eq_emod (w a b : Nat) : (subMod w a b : Int) = ((a : Int) - b) % (2 ^ w : Nat) := by
  have hp : 0 < 2 ^ w := Nat.two_pow_pos w
  have hb : b % 2 ^ w ≤ 2 ^ w := (Nat.mod_lt b hp).le
  have hd : (b : Int) = 2 ^ w * (b / 2 ^ w : Nat) + (b % 2 ^ w : Nat) := by exact_mod_cast (Nat.div_add_mod b (2 ^ w)).symm
  have key : (a : Int) + ((2 ^ w - b % 2 ^ w : Nat) : Int)
      = ((a : Int) - b) + ((2 ^ w : Nat) : Int) * (1 + (b / 2 ^ w : Nat)) := by
    push_cast [Nat.cast_sub hb]
    push_cast at hd
    linarith
  rw [subMod, Int.natCast_emod, Int.natCast_add, key, Int.add_mul_emod_self_left]

/-- A difference is found again when it is added (R167 (c)): differences below two to the width are exact. -/
theorem subMod_add_mod {w a d : Nat} (hd : d < 2 ^ w) : subMod w ((a + d) % 2 ^ w) a = d := by
  have h := subMod_eq_emod w ((a + d) % 2 ^ w) a
  rw [Int.natCast_emod, Int.emod_sub_emod, Nat.cast_add, add_sub_cancel_left,
    Int.emod_eq_of_lt (by positivity) (by exact_mod_cast hd)] at h
  exact_mod_cast h

/-- Where nothing is borrowed the difference is the ordinary one. -/
theorem subMod_of_le {w a b : Nat} (hab : b ≤ a) (ha : a < 2 ^ w) : subMod w a b = a - b := by
  have h := subMod_add_mod (w := w) (a := b) (d := a - b) (by omega)
  rwa [Nat.add_sub_cancel' hab, Nat.mod_eq_of_lt ha] at h

theorem incMod_decMod {w a : Nat} (h : a < 2 ^ w) : incMod w (decMod w a) = a := by
  have hd := subMod_eq_emod w a 1
  have : (incMod w (decMod w a) : Int) = a := by
    rw [incMod, decMod, Int.natCast_emod, Nat.cast_add, hd, Nat.cast_one, Int.emod_add_emod, sub_add_cancel,
      Int.emod_eq_of_lt (by positivity) (by exact_mod_cast h)]
  exact_mod_cast this

theorem decMod_incMod {w a : Nat} (hw : 1 ≤ w) (h : a < 2 ^ w) : decMod w (incMod w a) = a := by
  have h1 : 1 < 2 ^ w := Nat.one_lt_two_pow (by omega)
  have hd := subMod_eq_emod w (incMod w a) 1
  have : (decMod w (incMod w a) : Int) = a := by
    rw [decMod, hd, incMod, Int.natCast_emod, Int.emod_sub_emod, Nat.cast_add, Nat.cast_one, add_sub_cancel_right,
      Int.emod_eq_of_lt (by positivity) (by exact_mod_cast h)]
  exact_mod_cast this

/-- No index names a slot outside the ring (R41). -/
theorem slotOf_lt (c : Config) (i : Index) : slotOf c i < c.capacity := Nat.mod_lt _ (Nat.two_pow_pos c.K)

/-- The ring's size divides the index's range, so a wrap of the index needs no branch (R41). -/
theorem slotOf_mod (c : Config) (h : c.K ≤ c.IW) (i : Index) : slotOf c (i % 2 ^ c.IW) = slotOf c i :=
  Nat.mod_mod_of_dvd i (Nat.pow_dvd_pow 2 h)

/-- R41: the next index names the next slot, at the wrap of the index too. -/
theorem slotOf_incMod (c : Config) (h : c.K ≤ c.IW) (i : Index) :
    slotOf c (incMod c.IW i) = (slotOf c i + 1) % c.capacity := by
  rw [incMod, slotOf_mod c h]
  exact (Nat.mod_add_mod i (2 ^ c.K) 1).symm

theorem slotAddr_lt (c : Config) (i : Index) (f : Field) : slotAddr c i f < 2 * c.capacity := by
  have := slotOf_lt c i
  cases f <;> simp only [slotAddr, fieldNumber] <;> omega

/-- Two fields have one address exactly when they are the same field of the same slot (R40). -/
theorem slotAddr_inj (c : Config) (i j : Index) (f g : Field) :
    slotAddr c i f = slotAddr c j g ↔ slotOf c i = slotOf c j ∧ f = g := by
  cases f <;> cases g <;> simp only [slotAddr, fieldNumber] <;> simp <;> omega

end Sys2Proof.Machine
end

