-- ==== Sys2Proof/Laws/Memory.lean ====
section
/-! SUPPORT. Laws/Memory.lean: the ring's storage: a read after a write, and the canonical form that every write keeps. -/

namespace Sys2Proof.Machine

/-- An address below every listed one reads as an unlisted address does. -/
theorem Memory.read_eq_zero {m : Memory} {a : Nat} (h : ∀ e ∈ m, a < e.1) : Memory.read m a = 0 := by
  induction m with
  | nil => rfl
  | cons e m ih =>
    rw [Memory.read, if_neg (by have := h e (by simp); omega)]
    exact ih fun x hx => h x (by simp [hx])

theorem Memory.read_cons_same {m : Memory} {a v : Nat} (h : ∀ e ∈ m, a < e.1) :
    Memory.read (Memory.cons a v m) a = v := by
  rw [Memory.cons]
  split
  · rw [Memory.read_eq_zero h]; exact (‹v = 0›).symm
  · simp [Memory.read]

theorem Memory.read_cons_other {m : Memory} {a b v : Nat} (h : b ≠ a) :
    Memory.read (Memory.cons a v m) b = Memory.read m b := by
  rw [Memory.cons]
  split
  · rfl
  · rw [Memory.read, if_neg (Ne.symm h)]

/-- A read after a write to the same field gives the value written (R42). -/
theorem Memory.read_write_same {m : Memory} (hm : Memory.wf m) (a v : Nat) :
    Memory.read (Memory.write m a v) a = v := by
  induction m with
  | nil => exact Memory.read_cons_same (by simp)
  | cons e m ih =>
    obtain ⟨hsort, hne⟩ := hm
    rw [List.pairwise_cons] at hsort
    rw [Memory.write]
    split
    · refine Memory.read_cons_same fun x hx => ?_
      rcases List.mem_cons.1 hx with rfl | hx
      · assumption
      · exact lt_trans ‹a < e.1› (hsort.1 x hx)
    · split
      · exact Memory.read_cons_same fun x hx => ‹a = e.1› ▸ hsort.1 x hx
      · rw [Memory.read, if_neg (by omega)]
        exact ih ⟨hsort.2, fun x hx => hne x (by simp [hx])⟩

/-- A write leaves every other field alone (R42). -/
theorem Memory.read_write_other {m : Memory} {a b : Nat} (v : Nat) (h : b ≠ a) :
    Memory.read (Memory.write m a v) b = Memory.read m b := by
  induction m with
  | nil => exact Memory.read_cons_other h
  | cons e m ih =>
    rw [Memory.write]
    split
    · exact Memory.read_cons_other h
    · split
      · rw [Memory.read_cons_other h, Memory.read, if_neg (by omega)]
      · rw [Memory.read, Memory.read, ih]

/-- Every entry after a write is an old one or the new one. -/
theorem Memory.mem_write {m : Memory} {a v : Nat} {e : Nat × Nat} (h : e ∈ Memory.write m a v) :
    e ∈ m ∨ (e = (a, v) ∧ v ≠ 0) := by
  have hcons : ∀ n : Memory, e ∈ Memory.cons a v n → e ∈ n ∨ (e = (a, v) ∧ v ≠ 0) := by
    intro n hn
    rw [Memory.cons] at hn
    split at hn
    · exact .inl hn
    · rcases List.mem_cons.1 hn with rfl | hn
      · exact .inr ⟨rfl, ‹_›⟩
      · exact .inl hn
  induction m with
  | nil => exact hcons [] h
  | cons x m ih =>
    rw [Memory.write] at h
    split at h
    · exact hcons _ h
    · split at h
      · rcases hcons _ h with h | h
        · exact .inl (by simp [h])
        · exact .inr h
      · rcases List.mem_cons.1 h with rfl | h
        · exact .inl (by simp)
        · rcases ih h with h | h
          · exact .inl (by simp [h])
          · exact .inr h

theorem Memory.cons_wf {m : Memory} {a v : Nat} (hm : Memory.wf m) (h : ∀ e ∈ m, a < e.1) :
    Memory.wf (Memory.cons a v m) := by
  rw [Memory.cons]
  split
  · exact hm
  · refine ⟨List.pairwise_cons.2 ⟨h, hm.1⟩, fun e he => ?_⟩
    rcases List.mem_cons.1 he with rfl | he
    · assumption
    · exact hm.2 e he

/-- The only operation that changes the storage keeps its canonical form. -/
theorem Memory.write_wf {m : Memory} (hm : Memory.wf m) (a v : Nat) : Memory.wf (Memory.write m a v) := by
  induction m with
  | nil => exact Memory.cons_wf hm (by simp)
  | cons e m ih =>
    obtain ⟨hsort, hne⟩ := hm
    rw [List.pairwise_cons] at hsort
    have hm' : Memory.wf m := ⟨hsort.2, fun x hx => hne x (by simp [hx])⟩
    rw [Memory.write]
    split
    · refine Memory.cons_wf ⟨List.pairwise_cons.2 hsort, hne⟩ fun x hx => ?_
      rcases List.mem_cons.1 hx with rfl | hx
      · assumption
      · exact lt_trans ‹a < e.1› (hsort.1 x hx)
    · split
      · exact Memory.cons_wf hm' fun x hx => ‹a = e.1› ▸ hsort.1 x hx
      · have hw := ih hm'
        refine ⟨List.pairwise_cons.2 ⟨fun x hx => ?_, hw.1⟩, fun x hx => ?_⟩
        · rcases Memory.mem_write hx with hx | ⟨rfl, -⟩
          · exact hsort.1 x hx
          · exact lt_of_le_of_ne (not_lt.1 ‹¬ a < e.1›) (Ne.symm ‹¬ a = e.1›)
        · rcases List.mem_cons.1 hx with rfl | hx
          · exact hne _ (by simp)
          · exact hw.2 x hx

/-- Reset's storage is in canonical form. -/
theorem reset_ring_wf : Memory.wf State.reset.ring := by decide

end Sys2Proof.Machine
end

