-- ==== Sys2Proof/Laws/State.lean ====
section
/-! SUPPORT. Laws/State.lean: every field after every named update of the state, one lemma each, true by rfl, so that
no proof unfolds an update. -/

namespace Sys2Proof.Machine

/-! ### setRing -/

@[simp] theorem State.setRing_cfg (s : State) (m : Memory) : (s.setRing m).cfg = s.cfg := rfl
@[simp] theorem State.setRing_ring (s : State) (m : Memory) : (s.setRing m).ring = m := rfl
@[simp] theorem State.setRing_writeIndex (s : State) (m : Memory) : (s.setRing m).writeIndex = s.writeIndex := rfl
@[simp] theorem State.setRing_readIndex (s : State) (m : Memory) : (s.setRing m).readIndex = s.readIndex := rfl
@[simp] theorem State.setRing_syncPulseStart (s : State) (m : Memory) : (s.setRing m).syncPulseStart = s.syncPulseStart := rfl
@[simp] theorem State.setRing_activeAxis (s : State) (m : Memory) : (s.setRing m).activeAxis = s.activeAxis := rfl
@[simp] theorem State.setRing_angleSweep (s : State) (m : Memory) : (s.setRing m).angleSweep = s.angleSweep := rfl
@[simp] theorem State.setRing_angleCreep (s : State) (m : Memory) : (s.setRing m).angleCreep = s.angleCreep := rfl
@[simp] theorem State.setRing_updating (s : State) (m : Memory) : (s.setRing m).updating = s.updating := rfl
@[simp] theorem State.setRing_enabled (s : State) (m : Memory) : (s.setRing m).enabled = s.enabled := rfl
@[simp] theorem State.setRing_cphase (s : State) (m : Memory) : (s.setRing m).cphase = s.cphase := rfl
@[simp] theorem State.setRing_cStart (s : State) (m : Memory) : (s.setRing m).cStart = s.cStart := rfl
@[simp] theorem State.setRing_cEnd (s : State) (m : Memory) : (s.setRing m).cEnd = s.cEnd := rfl
@[simp] theorem State.setRing_cRet (s : State) (m : Memory) : (s.setRing m).cRet = s.cRet := rfl
@[simp] theorem State.setRing_result (s : State) (m : Memory) : (s.setRing m).result = s.result := rfl
@[simp] theorem State.setRing_input (s : State) (m : Memory) : (s.setRing m).input = s.input := rfl

/-! ### setWriteIndex -/

@[simp] theorem State.setWriteIndex_cfg (s : State) (i : Index) : (s.setWriteIndex i).cfg = s.cfg := rfl
@[simp] theorem State.setWriteIndex_ring (s : State) (i : Index) : (s.setWriteIndex i).ring = s.ring := rfl
@[simp] theorem State.setWriteIndex_writeIndex (s : State) (i : Index) : (s.setWriteIndex i).writeIndex = i := rfl
@[simp] theorem State.setWriteIndex_readIndex (s : State) (i : Index) : (s.setWriteIndex i).readIndex = s.readIndex := rfl
@[simp] theorem State.setWriteIndex_syncPulseStart (s : State) (i : Index) : (s.setWriteIndex i).syncPulseStart = s.syncPulseStart := rfl
@[simp] theorem State.setWriteIndex_activeAxis (s : State) (i : Index) : (s.setWriteIndex i).activeAxis = s.activeAxis := rfl
@[simp] theorem State.setWriteIndex_angleSweep (s : State) (i : Index) : (s.setWriteIndex i).angleSweep = s.angleSweep := rfl
@[simp] theorem State.setWriteIndex_angleCreep (s : State) (i : Index) : (s.setWriteIndex i).angleCreep = s.angleCreep := rfl
@[simp] theorem State.setWriteIndex_updating (s : State) (i : Index) : (s.setWriteIndex i).updating = s.updating := rfl
@[simp] theorem State.setWriteIndex_enabled (s : State) (i : Index) : (s.setWriteIndex i).enabled = s.enabled := rfl
@[simp] theorem State.setWriteIndex_cphase (s : State) (i : Index) : (s.setWriteIndex i).cphase = s.cphase := rfl
@[simp] theorem State.setWriteIndex_cStart (s : State) (i : Index) : (s.setWriteIndex i).cStart = s.cStart := rfl
@[simp] theorem State.setWriteIndex_cEnd (s : State) (i : Index) : (s.setWriteIndex i).cEnd = s.cEnd := rfl
@[simp] theorem State.setWriteIndex_cRet (s : State) (i : Index) : (s.setWriteIndex i).cRet = s.cRet := rfl
@[simp] theorem State.setWriteIndex_result (s : State) (i : Index) : (s.setWriteIndex i).result = s.result := rfl
@[simp] theorem State.setWriteIndex_input (s : State) (i : Index) : (s.setWriteIndex i).input = s.input := rfl

/-! ### setReadIndex -/

@[simp] theorem State.setReadIndex_cfg (s : State) (i : Index) : (s.setReadIndex i).cfg = s.cfg := rfl
@[simp] theorem State.setReadIndex_ring (s : State) (i : Index) : (s.setReadIndex i).ring = s.ring := rfl
@[simp] theorem State.setReadIndex_writeIndex (s : State) (i : Index) : (s.setReadIndex i).writeIndex = s.writeIndex := rfl
@[simp] theorem State.setReadIndex_readIndex (s : State) (i : Index) : (s.setReadIndex i).readIndex = i := rfl
@[simp] theorem State.setReadIndex_syncPulseStart (s : State) (i : Index) : (s.setReadIndex i).syncPulseStart = s.syncPulseStart := rfl
@[simp] theorem State.setReadIndex_activeAxis (s : State) (i : Index) : (s.setReadIndex i).activeAxis = s.activeAxis := rfl
@[simp] theorem State.setReadIndex_angleSweep (s : State) (i : Index) : (s.setReadIndex i).angleSweep = s.angleSweep := rfl
@[simp] theorem State.setReadIndex_angleCreep (s : State) (i : Index) : (s.setReadIndex i).angleCreep = s.angleCreep := rfl
@[simp] theorem State.setReadIndex_updating (s : State) (i : Index) : (s.setReadIndex i).updating = s.updating := rfl
@[simp] theorem State.setReadIndex_enabled (s : State) (i : Index) : (s.setReadIndex i).enabled = s.enabled := rfl
@[simp] theorem State.setReadIndex_cphase (s : State) (i : Index) : (s.setReadIndex i).cphase = s.cphase := rfl
@[simp] theorem State.setReadIndex_cStart (s : State) (i : Index) : (s.setReadIndex i).cStart = s.cStart := rfl
@[simp] theorem State.setReadIndex_cEnd (s : State) (i : Index) : (s.setReadIndex i).cEnd = s.cEnd := rfl
@[simp] theorem State.setReadIndex_cRet (s : State) (i : Index) : (s.setReadIndex i).cRet = s.cRet := rfl
@[simp] theorem State.setReadIndex_result (s : State) (i : Index) : (s.setReadIndex i).result = s.result := rfl
@[simp] theorem State.setReadIndex_input (s : State) (i : Index) : (s.setReadIndex i).input = s.input := rfl

/-! ### setOrigin -/

@[simp] theorem State.setOrigin_cfg (s : State) (t : Ticks) (a : Axis) : (s.setOrigin t a).cfg = s.cfg := rfl
@[simp] theorem State.setOrigin_ring (s : State) (t : Ticks) (a : Axis) : (s.setOrigin t a).ring = s.ring := rfl
@[simp] theorem State.setOrigin_writeIndex (s : State) (t : Ticks) (a : Axis) : (s.setOrigin t a).writeIndex = s.writeIndex := rfl
@[simp] theorem State.setOrigin_readIndex (s : State) (t : Ticks) (a : Axis) : (s.setOrigin t a).readIndex = s.readIndex := rfl
@[simp] theorem State.setOrigin_syncPulseStart (s : State) (t : Ticks) (a : Axis) : (s.setOrigin t a).syncPulseStart = t := rfl
@[simp] theorem State.setOrigin_activeAxis (s : State) (t : Ticks) (a : Axis) : (s.setOrigin t a).activeAxis = a := rfl
@[simp] theorem State.setOrigin_angleSweep (s : State) (t : Ticks) (a : Axis) : (s.setOrigin t a).angleSweep = s.angleSweep := rfl
@[simp] theorem State.setOrigin_angleCreep (s : State) (t : Ticks) (a : Axis) : (s.setOrigin t a).angleCreep = s.angleCreep := rfl
@[simp] theorem State.setOrigin_updating (s : State) (t : Ticks) (a : Axis) : (s.setOrigin t a).updating = s.updating := rfl
@[simp] theorem State.setOrigin_enabled (s : State) (t : Ticks) (a : Axis) : (s.setOrigin t a).enabled = s.enabled := rfl
@[simp] theorem State.setOrigin_cphase (s : State) (t : Ticks) (a : Axis) : (s.setOrigin t a).cphase = s.cphase := rfl
@[simp] theorem State.setOrigin_cStart (s : State) (t : Ticks) (a : Axis) : (s.setOrigin t a).cStart = s.cStart := rfl
@[simp] theorem State.setOrigin_cEnd (s : State) (t : Ticks) (a : Axis) : (s.setOrigin t a).cEnd = s.cEnd := rfl
@[simp] theorem State.setOrigin_cRet (s : State) (t : Ticks) (a : Axis) : (s.setOrigin t a).cRet = s.cRet := rfl
@[simp] theorem State.setOrigin_result (s : State) (t : Ticks) (a : Axis) : (s.setOrigin t a).result = s.result := rfl
@[simp] theorem State.setOrigin_input (s : State) (t : Ticks) (a : Axis) : (s.setOrigin t a).input = s.input := rfl

/-! ### setAngle -/

@[simp] theorem State.setAngle_cfg (s : State) (a : Axis) (v : FltBits) : (s.setAngle a v).cfg = s.cfg := rfl
@[simp] theorem State.setAngle_ring (s : State) (a : Axis) (v : FltBits) : (s.setAngle a v).ring = s.ring := rfl
@[simp] theorem State.setAngle_writeIndex (s : State) (a : Axis) (v : FltBits) : (s.setAngle a v).writeIndex = s.writeIndex := rfl
@[simp] theorem State.setAngle_readIndex (s : State) (a : Axis) (v : FltBits) : (s.setAngle a v).readIndex = s.readIndex := rfl
@[simp] theorem State.setAngle_syncPulseStart (s : State) (a : Axis) (v : FltBits) : (s.setAngle a v).syncPulseStart = s.syncPulseStart := rfl
@[simp] theorem State.setAngle_activeAxis (s : State) (a : Axis) (v : FltBits) : (s.setAngle a v).activeAxis = s.activeAxis := rfl
@[simp] theorem State.setAngle_angleSweep (s : State) (a : Axis) (v : FltBits) : (s.setAngle a v).angleSweep = if a = .sweep then v else s.angleSweep := rfl
@[simp] theorem State.setAngle_angleCreep (s : State) (a : Axis) (v : FltBits) : (s.setAngle a v).angleCreep = if a = .creep then v else s.angleCreep := rfl
@[simp] theorem State.setAngle_updating (s : State) (a : Axis) (v : FltBits) : (s.setAngle a v).updating = s.updating := rfl
@[simp] theorem State.setAngle_enabled (s : State) (a : Axis) (v : FltBits) : (s.setAngle a v).enabled = s.enabled := rfl
@[simp] theorem State.setAngle_cphase (s : State) (a : Axis) (v : FltBits) : (s.setAngle a v).cphase = s.cphase := rfl
@[simp] theorem State.setAngle_cStart (s : State) (a : Axis) (v : FltBits) : (s.setAngle a v).cStart = s.cStart := rfl
@[simp] theorem State.setAngle_cEnd (s : State) (a : Axis) (v : FltBits) : (s.setAngle a v).cEnd = s.cEnd := rfl
@[simp] theorem State.setAngle_cRet (s : State) (a : Axis) (v : FltBits) : (s.setAngle a v).cRet = s.cRet := rfl
@[simp] theorem State.setAngle_result (s : State) (a : Axis) (v : FltBits) : (s.setAngle a v).result = s.result := rfl
@[simp] theorem State.setAngle_input (s : State) (a : Axis) (v : FltBits) : (s.setAngle a v).input = s.input := rfl

/-! ### setPhase -/

@[simp] theorem State.setPhase_cfg (s : State) (p : Phase) : (s.setPhase p).cfg = s.cfg := rfl
@[simp] theorem State.setPhase_ring (s : State) (p : Phase) : (s.setPhase p).ring = s.ring := rfl
@[simp] theorem State.setPhase_writeIndex (s : State) (p : Phase) : (s.setPhase p).writeIndex = s.writeIndex := rfl
@[simp] theorem State.setPhase_readIndex (s : State) (p : Phase) : (s.setPhase p).readIndex = s.readIndex := rfl
@[simp] theorem State.setPhase_syncPulseStart (s : State) (p : Phase) : (s.setPhase p).syncPulseStart = s.syncPulseStart := rfl
@[simp] theorem State.setPhase_activeAxis (s : State) (p : Phase) : (s.setPhase p).activeAxis = s.activeAxis := rfl
@[simp] theorem State.setPhase_angleSweep (s : State) (p : Phase) : (s.setPhase p).angleSweep = s.angleSweep := rfl
@[simp] theorem State.setPhase_angleCreep (s : State) (p : Phase) : (s.setPhase p).angleCreep = s.angleCreep := rfl
@[simp] theorem State.setPhase_updating (s : State) (p : Phase) : (s.setPhase p).updating = s.updating := rfl
@[simp] theorem State.setPhase_enabled (s : State) (p : Phase) : (s.setPhase p).enabled = s.enabled := rfl
@[simp] theorem State.setPhase_cphase (s : State) (p : Phase) : (s.setPhase p).cphase = p := rfl
@[simp] theorem State.setPhase_cStart (s : State) (p : Phase) : (s.setPhase p).cStart = s.cStart := rfl
@[simp] theorem State.setPhase_cEnd (s : State) (p : Phase) : (s.setPhase p).cEnd = s.cEnd := rfl
@[simp] theorem State.setPhase_cRet (s : State) (p : Phase) : (s.setPhase p).cRet = s.cRet := rfl
@[simp] theorem State.setPhase_result (s : State) (p : Phase) : (s.setPhase p).result = s.result := rfl
@[simp] theorem State.setPhase_input (s : State) (p : Phase) : (s.setPhase p).input = s.input := rfl

/-! ### setStartLatch -/

@[simp] theorem State.setStartLatch_cfg (s : State) (t : Ticks) : (s.setStartLatch t).cfg = s.cfg := rfl
@[simp] theorem State.setStartLatch_ring (s : State) (t : Ticks) : (s.setStartLatch t).ring = s.ring := rfl
@[simp] theorem State.setStartLatch_writeIndex (s : State) (t : Ticks) : (s.setStartLatch t).writeIndex = s.writeIndex := rfl
@[simp] theorem State.setStartLatch_readIndex (s : State) (t : Ticks) : (s.setStartLatch t).readIndex = s.readIndex := rfl
@[simp] theorem State.setStartLatch_syncPulseStart (s : State) (t : Ticks) : (s.setStartLatch t).syncPulseStart = s.syncPulseStart := rfl
@[simp] theorem State.setStartLatch_activeAxis (s : State) (t : Ticks) : (s.setStartLatch t).activeAxis = s.activeAxis := rfl
@[simp] theorem State.setStartLatch_angleSweep (s : State) (t : Ticks) : (s.setStartLatch t).angleSweep = s.angleSweep := rfl
@[simp] theorem State.setStartLatch_angleCreep (s : State) (t : Ticks) : (s.setStartLatch t).angleCreep = s.angleCreep := rfl
@[simp] theorem State.setStartLatch_updating (s : State) (t : Ticks) : (s.setStartLatch t).updating = s.updating := rfl
@[simp] theorem State.setStartLatch_enabled (s : State) (t : Ticks) : (s.setStartLatch t).enabled = s.enabled := rfl
@[simp] theorem State.setStartLatch_cphase (s : State) (t : Ticks) : (s.setStartLatch t).cphase = s.cphase := rfl
@[simp] theorem State.setStartLatch_cStart (s : State) (t : Ticks) : (s.setStartLatch t).cStart = t := rfl
@[simp] theorem State.setStartLatch_cEnd (s : State) (t : Ticks) : (s.setStartLatch t).cEnd = s.cEnd := rfl
@[simp] theorem State.setStartLatch_cRet (s : State) (t : Ticks) : (s.setStartLatch t).cRet = s.cRet := rfl
@[simp] theorem State.setStartLatch_result (s : State) (t : Ticks) : (s.setStartLatch t).result = s.result := rfl
@[simp] theorem State.setStartLatch_input (s : State) (t : Ticks) : (s.setStartLatch t).input = s.input := rfl

/-! ### setEndLatch -/

@[simp] theorem State.setEndLatch_cfg (s : State) (t : Ticks) : (s.setEndLatch t).cfg = s.cfg := rfl
@[simp] theorem State.setEndLatch_ring (s : State) (t : Ticks) : (s.setEndLatch t).ring = s.ring := rfl
@[simp] theorem State.setEndLatch_writeIndex (s : State) (t : Ticks) : (s.setEndLatch t).writeIndex = s.writeIndex := rfl
@[simp] theorem State.setEndLatch_readIndex (s : State) (t : Ticks) : (s.setEndLatch t).readIndex = s.readIndex := rfl
@[simp] theorem State.setEndLatch_syncPulseStart (s : State) (t : Ticks) : (s.setEndLatch t).syncPulseStart = s.syncPulseStart := rfl
@[simp] theorem State.setEndLatch_activeAxis (s : State) (t : Ticks) : (s.setEndLatch t).activeAxis = s.activeAxis := rfl
@[simp] theorem State.setEndLatch_angleSweep (s : State) (t : Ticks) : (s.setEndLatch t).angleSweep = s.angleSweep := rfl
@[simp] theorem State.setEndLatch_angleCreep (s : State) (t : Ticks) : (s.setEndLatch t).angleCreep = s.angleCreep := rfl
@[simp] theorem State.setEndLatch_updating (s : State) (t : Ticks) : (s.setEndLatch t).updating = s.updating := rfl
@[simp] theorem State.setEndLatch_enabled (s : State) (t : Ticks) : (s.setEndLatch t).enabled = s.enabled := rfl
@[simp] theorem State.setEndLatch_cphase (s : State) (t : Ticks) : (s.setEndLatch t).cphase = s.cphase := rfl
@[simp] theorem State.setEndLatch_cStart (s : State) (t : Ticks) : (s.setEndLatch t).cStart = s.cStart := rfl
@[simp] theorem State.setEndLatch_cEnd (s : State) (t : Ticks) : (s.setEndLatch t).cEnd = t := rfl
@[simp] theorem State.setEndLatch_cRet (s : State) (t : Ticks) : (s.setEndLatch t).cRet = s.cRet := rfl
@[simp] theorem State.setEndLatch_result (s : State) (t : Ticks) : (s.setEndLatch t).result = s.result := rfl
@[simp] theorem State.setEndLatch_input (s : State) (t : Ticks) : (s.setEndLatch t).input = s.input := rfl

/-! ### setResult -/

@[simp] theorem State.setResult_cfg (s : State) (r : Result) : (s.setResult r).cfg = s.cfg := rfl
@[simp] theorem State.setResult_ring (s : State) (r : Result) : (s.setResult r).ring = s.ring := rfl
@[simp] theorem State.setResult_writeIndex (s : State) (r : Result) : (s.setResult r).writeIndex = s.writeIndex := rfl
@[simp] theorem State.setResult_readIndex (s : State) (r : Result) : (s.setResult r).readIndex = s.readIndex := rfl
@[simp] theorem State.setResult_syncPulseStart (s : State) (r : Result) : (s.setResult r).syncPulseStart = s.syncPulseStart := rfl
@[simp] theorem State.setResult_activeAxis (s : State) (r : Result) : (s.setResult r).activeAxis = s.activeAxis := rfl
@[simp] theorem State.setResult_angleSweep (s : State) (r : Result) : (s.setResult r).angleSweep = s.angleSweep := rfl
@[simp] theorem State.setResult_angleCreep (s : State) (r : Result) : (s.setResult r).angleCreep = s.angleCreep := rfl
@[simp] theorem State.setResult_updating (s : State) (r : Result) : (s.setResult r).updating = s.updating := rfl
@[simp] theorem State.setResult_enabled (s : State) (r : Result) : (s.setResult r).enabled = s.enabled := rfl
@[simp] theorem State.setResult_cphase (s : State) (r : Result) : (s.setResult r).cphase = s.cphase := rfl
@[simp] theorem State.setResult_cStart (s : State) (r : Result) : (s.setResult r).cStart = s.cStart := rfl
@[simp] theorem State.setResult_cEnd (s : State) (r : Result) : (s.setResult r).cEnd = s.cEnd := rfl
@[simp] theorem State.setResult_cRet (s : State) (r : Result) : (s.setResult r).cRet = s.cRet := rfl
@[simp] theorem State.setResult_result (s : State) (r : Result) : (s.setResult r).result = r := rfl
@[simp] theorem State.setResult_input (s : State) (r : Result) : (s.setResult r).input = s.input := rfl

/-! ### setInput -/

@[simp] theorem State.setInput_cfg (s : State) (ws : List EventWord) : (s.setInput ws).cfg = s.cfg := rfl
@[simp] theorem State.setInput_ring (s : State) (ws : List EventWord) : (s.setInput ws).ring = s.ring := rfl
@[simp] theorem State.setInput_writeIndex (s : State) (ws : List EventWord) : (s.setInput ws).writeIndex = s.writeIndex := rfl
@[simp] theorem State.setInput_readIndex (s : State) (ws : List EventWord) : (s.setInput ws).readIndex = s.readIndex := rfl
@[simp] theorem State.setInput_syncPulseStart (s : State) (ws : List EventWord) : (s.setInput ws).syncPulseStart = s.syncPulseStart := rfl
@[simp] theorem State.setInput_activeAxis (s : State) (ws : List EventWord) : (s.setInput ws).activeAxis = s.activeAxis := rfl
@[simp] theorem State.setInput_angleSweep (s : State) (ws : List EventWord) : (s.setInput ws).angleSweep = s.angleSweep := rfl
@[simp] theorem State.setInput_angleCreep (s : State) (ws : List EventWord) : (s.setInput ws).angleCreep = s.angleCreep := rfl
@[simp] theorem State.setInput_updating (s : State) (ws : List EventWord) : (s.setInput ws).updating = s.updating := rfl
@[simp] theorem State.setInput_enabled (s : State) (ws : List EventWord) : (s.setInput ws).enabled = s.enabled := rfl
@[simp] theorem State.setInput_cphase (s : State) (ws : List EventWord) : (s.setInput ws).cphase = s.cphase := rfl
@[simp] theorem State.setInput_cStart (s : State) (ws : List EventWord) : (s.setInput ws).cStart = s.cStart := rfl
@[simp] theorem State.setInput_cEnd (s : State) (ws : List EventWord) : (s.setInput ws).cEnd = s.cEnd := rfl
@[simp] theorem State.setInput_cRet (s : State) (ws : List EventWord) : (s.setInput ws).cRet = s.cRet := rfl
@[simp] theorem State.setInput_result (s : State) (ws : List EventWord) : (s.setInput ws).result = s.result := rfl
@[simp] theorem State.setInput_input (s : State) (ws : List EventWord) : (s.setInput ws).input = ws := rfl

/-! ### setUpdating -/

@[simp] theorem State.setUpdating_cfg (s : State) (b : Bool) : (s.setUpdating b).cfg = s.cfg := rfl
@[simp] theorem State.setUpdating_ring (s : State) (b : Bool) : (s.setUpdating b).ring = s.ring := rfl
@[simp] theorem State.setUpdating_writeIndex (s : State) (b : Bool) : (s.setUpdating b).writeIndex = s.writeIndex := rfl
@[simp] theorem State.setUpdating_readIndex (s : State) (b : Bool) : (s.setUpdating b).readIndex = s.readIndex := rfl
@[simp] theorem State.setUpdating_syncPulseStart (s : State) (b : Bool) : (s.setUpdating b).syncPulseStart = s.syncPulseStart := rfl
@[simp] theorem State.setUpdating_activeAxis (s : State) (b : Bool) : (s.setUpdating b).activeAxis = s.activeAxis := rfl
@[simp] theorem State.setUpdating_angleSweep (s : State) (b : Bool) : (s.setUpdating b).angleSweep = s.angleSweep := rfl
@[simp] theorem State.setUpdating_angleCreep (s : State) (b : Bool) : (s.setUpdating b).angleCreep = s.angleCreep := rfl
@[simp] theorem State.setUpdating_updating (s : State) (b : Bool) : (s.setUpdating b).updating = b := rfl
@[simp] theorem State.setUpdating_enabled (s : State) (b : Bool) : (s.setUpdating b).enabled = s.enabled := rfl
@[simp] theorem State.setUpdating_cphase (s : State) (b : Bool) : (s.setUpdating b).cphase = s.cphase := rfl
@[simp] theorem State.setUpdating_cStart (s : State) (b : Bool) : (s.setUpdating b).cStart = s.cStart := rfl
@[simp] theorem State.setUpdating_cEnd (s : State) (b : Bool) : (s.setUpdating b).cEnd = s.cEnd := rfl
@[simp] theorem State.setUpdating_cRet (s : State) (b : Bool) : (s.setUpdating b).cRet = s.cRet := rfl
@[simp] theorem State.setUpdating_result (s : State) (b : Bool) : (s.setUpdating b).result = s.result := rfl
@[simp] theorem State.setUpdating_input (s : State) (b : Bool) : (s.setUpdating b).input = s.input := rfl

/-! ### setEnabled -/

@[simp] theorem State.setEnabled_cfg (s : State) (b : Bool) : (s.setEnabled b).cfg = s.cfg := rfl
@[simp] theorem State.setEnabled_ring (s : State) (b : Bool) : (s.setEnabled b).ring = s.ring := rfl
@[simp] theorem State.setEnabled_writeIndex (s : State) (b : Bool) : (s.setEnabled b).writeIndex = s.writeIndex := rfl
@[simp] theorem State.setEnabled_readIndex (s : State) (b : Bool) : (s.setEnabled b).readIndex = s.readIndex := rfl
@[simp] theorem State.setEnabled_syncPulseStart (s : State) (b : Bool) : (s.setEnabled b).syncPulseStart = s.syncPulseStart := rfl
@[simp] theorem State.setEnabled_activeAxis (s : State) (b : Bool) : (s.setEnabled b).activeAxis = s.activeAxis := rfl
@[simp] theorem State.setEnabled_angleSweep (s : State) (b : Bool) : (s.setEnabled b).angleSweep = s.angleSweep := rfl
@[simp] theorem State.setEnabled_angleCreep (s : State) (b : Bool) : (s.setEnabled b).angleCreep = s.angleCreep := rfl
@[simp] theorem State.setEnabled_updating (s : State) (b : Bool) : (s.setEnabled b).updating = s.updating := rfl
@[simp] theorem State.setEnabled_enabled (s : State) (b : Bool) : (s.setEnabled b).enabled = b := rfl
@[simp] theorem State.setEnabled_cphase (s : State) (b : Bool) : (s.setEnabled b).cphase = s.cphase := rfl
@[simp] theorem State.setEnabled_cStart (s : State) (b : Bool) : (s.setEnabled b).cStart = s.cStart := rfl
@[simp] theorem State.setEnabled_cEnd (s : State) (b : Bool) : (s.setEnabled b).cEnd = s.cEnd := rfl
@[simp] theorem State.setEnabled_cRet (s : State) (b : Bool) : (s.setEnabled b).cRet = s.cRet := rfl
@[simp] theorem State.setEnabled_result (s : State) (b : Bool) : (s.setEnabled b).result = s.result := rfl
@[simp] theorem State.setEnabled_input (s : State) (b : Bool) : (s.setEnabled b).input = s.input := rfl

/-! ### setRet -/

@[simp] theorem State.setRet_cfg (s : State) (b : Bool) : (s.setRet b).cfg = s.cfg := rfl
@[simp] theorem State.setRet_ring (s : State) (b : Bool) : (s.setRet b).ring = s.ring := rfl
@[simp] theorem State.setRet_writeIndex (s : State) (b : Bool) : (s.setRet b).writeIndex = s.writeIndex := rfl
@[simp] theorem State.setRet_readIndex (s : State) (b : Bool) : (s.setRet b).readIndex = s.readIndex := rfl
@[simp] theorem State.setRet_syncPulseStart (s : State) (b : Bool) : (s.setRet b).syncPulseStart = s.syncPulseStart := rfl
@[simp] theorem State.setRet_activeAxis (s : State) (b : Bool) : (s.setRet b).activeAxis = s.activeAxis := rfl
@[simp] theorem State.setRet_angleSweep (s : State) (b : Bool) : (s.setRet b).angleSweep = s.angleSweep := rfl
@[simp] theorem State.setRet_angleCreep (s : State) (b : Bool) : (s.setRet b).angleCreep = s.angleCreep := rfl
@[simp] theorem State.setRet_updating (s : State) (b : Bool) : (s.setRet b).updating = s.updating := rfl
@[simp] theorem State.setRet_enabled (s : State) (b : Bool) : (s.setRet b).enabled = s.enabled := rfl
@[simp] theorem State.setRet_cphase (s : State) (b : Bool) : (s.setRet b).cphase = s.cphase := rfl
@[simp] theorem State.setRet_cStart (s : State) (b : Bool) : (s.setRet b).cStart = s.cStart := rfl
@[simp] theorem State.setRet_cEnd (s : State) (b : Bool) : (s.setRet b).cEnd = s.cEnd := rfl
@[simp] theorem State.setRet_cRet (s : State) (b : Bool) : (s.setRet b).cRet = b := rfl
@[simp] theorem State.setRet_result (s : State) (b : Bool) : (s.setRet b).result = s.result := rfl
@[simp] theorem State.setRet_input (s : State) (b : Bool) : (s.setRet b).input = s.input := rfl

/-! ### The angle file -/

@[simp] theorem State.angle_setAngle_same (s : State) (a : Axis) (v : FltBits) : (s.setAngle a v).angle a = v := by
  cases a <;> rfl

/-- The two axes are independent registers (R127). -/
theorem State.angle_setAngle_other (s : State) {a b : Axis} (v : FltBits) (h : b ≠ a) :
    (s.setAngle a v).angle b = s.angle b := by
  cases a <;> cases b <;> first | rfl | exact absurd rfl h

/-! ### Overwriting updates -/

@[simp] theorem State.setInput_self (s : State) : s.setInput s.input = s := rfl

@[simp] theorem State.setInput_setInput (s : State) (v w : List EventWord) :
    (s.setInput v).setInput w = s.setInput w := rfl

@[simp] theorem State.setResult_setResult (s : State) (q r : Result) : (s.setResult q).setResult r = s.setResult r := rfl

end Sys2Proof.Machine
end

