-- ==== Sys2Proof/Laws/Ops.lean ====
section
/-! SUPPORT. Laws/Ops.lean: what each shared operation of Machine/Ops.lean and Machine/Flags.lean can do. -/

namespace Sys2Proof.Machine

/-! ### The access primitives (R42) -/

@[simp] theorem slotWrite_ring (s : State) (i : Index) (f : Field) (v : Ticks) :
    (slotWrite s i f v).ring = s.ring.write (slotAddr s.cfg i f) v := rfl

/-- SlotWrite replaces one field of the ring and nothing else (R42). -/
theorem slotWrite_eq (s : State) (i : Index) (f : Field) (v : Ticks) :
    slotWrite s i f v = s.setRing (s.ring.write (slotAddr s.cfg i f) v) := rfl

theorem slotRead_slotWrite_same {s : State} (h : s.ring.wf) (i : Index) (f : Field) (v : Ticks) :
    slotRead (slotWrite s i f v) i f = v := Memory.read_write_same h _ _

theorem slotRead_slotWrite_other {s : State} {i j : Index} {f g : Field} (v : Ticks)
    (h : ¬ (slotOf s.cfg j = slotOf s.cfg i ∧ g = f)) :
    slotRead (slotWrite s i f v) j g = slotRead s j g :=
  Memory.read_write_other v (mt (slotAddr_inj s.cfg j i g f).1 h)

/-- A SlotRead depends on the ring and the configuration only. -/
theorem slotRead_congr {s t : State} (hr : s.ring = t.ring) (hc : s.cfg = t.cfg) (i : Index) (f : Field) :
    slotRead s i f = slotRead t i f := by rw [slotRead, slotRead, hr, hc]

/-- The fields of a ring all of whose entries fit have W bits. -/
theorem Memory.read_lt {m : Memory} {n : Nat} (hn : 0 < n) (h : ∀ e ∈ m, e.2 < n) (a : Nat) : Memory.read m a < n := by
  induction m with
  | nil => exact hn
  | cons e m ih =>
    rw [Memory.read]
    split
    · exact h e (by simp)
    · exact ih fun x hx => h x (by simp [hx])

/-! ### The edge interrupt (R146 to R150) -/

/-- While `enabled = 0` an edge changes nothing but the result port (R83). -/
theorem takeEdgeInterrupt_disabled {s : State} (handler : State → State) (h : s.enabled = false) :
    takeEdgeInterrupt handler s = s.setResult .nothing := by rw [takeEdgeInterrupt, h]; rfl

/-- While `enabled = 1` an edge is its handler (R146, R149). -/
theorem takeEdgeInterrupt_enabled {s : State} (handler : State → State) (h : s.enabled = true) :
    takeEdgeInterrupt handler s = (handler s).setResult .nothing := by rw [takeEdgeInterrupt, h]; rfl

/-! ### The refusals that depend on the sequencer (R64 (d)) -/

theorem whenIdle_idle {r : Refusal} {s : State} {k : State → State} (h : s.cphase = .idle) :
    whenIdle r s k = .next (k s) := if_pos h

theorem whenIdle_busy {r : Refusal} {s : State} {k : State → State} (h : s.cphase ≠ .idle) :
    whenIdle r s k = .refused r := if_neg h

/-- All that `whenIdle` can do when it answers a next state. -/
theorem whenIdle_next {r : Refusal} {s t : State} {k : State → State} (h : whenIdle r s k = .next t) :
    s.cphase = .idle ∧ t = k s := by
  by_cases hi : s.cphase = .idle
  · rw [whenIdle_idle hi] at h
    exact ⟨hi, (Host.Outcome.next.inj h).symm⟩
  · rw [whenIdle_busy hi] at h
    exact nomatch h

/-! ### The delivery of the next event word (R61) -/

theorem fetch_cons {s : State} {w : EventWord} {ws : List EventWord} (h : s.input = w :: ws) :
    fetch s = some (w, s.setInput ws) := by rw [fetch, h]

theorem fetch_nil {s : State} (h : s.input = []) : fetch s = none := by rw [fetch, h]

/-! ### The end of a phase and of a tick (R102, R103, R112) -/

/-- The end of a tick writes the flag, the sequencer and the result port, nothing else. -/
theorem endTick_eq (s : State) (b : Bool) :
    endTick s b = { s with updating := false, cphase := .idle, result := .bool b } := rfl

/-- The move to another phase writes the sequencer and the result port, nothing else. -/
theorem toPhase_eq (s : State) (p : Phase) : toPhase s p = { s with cphase := p, result := .nothing } := rfl

end Sys2Proof.Machine
end

