-- ==== Sys2Proof/Laws/Consumer.lean ====
section
/-! SUPPORT. Laws/Consumer.lean: what the classifier, the arms of phase P5 and the phases can do, one lemma each, and the
composition of runs. -/

namespace Sys2Proof.Machine

/-! ### The classifier (R90 to R93) -/

/-- The scan finds a code only if its window matches. -/
theorem firstMatch_matches {c : Config} {d : Ticks} {k : SyncCode} (h : firstMatch c d = some k) : c.Matches k d :=
  of_decide_eq_true (List.find?_some (p := fun k => decide (c.Matches k d)) h)

/-- Every sync code is scanned (R65: all eight values are legal). -/
theorem mem_syncCodes : ∀ k : SyncCode, k ∈ syncCodes := by decide

/-- The scan finds nothing exactly when no window matches. -/
theorem firstMatch_none {c : Config} {d : Ticks} : firstMatch c d = none ↔ ∀ k, ¬ c.Matches k d := by
  rw [firstMatch, List.find?_eq_none]
  exact ⟨fun h k => by simpa using h k (mem_syncCodes k), fun h k _ => by simpa using h k⟩

/-- All that the classifier can answer. -/
theorem classify_cases (c : Config) (d : Ticks) :
    (∃ k, firstMatch c d = some k ∧ classify c d = .sync k) ∨
    (firstMatch c d = none ∧ d < c.beamCeiling ∧ classify c d = .beam) ∨
    (firstMatch c d = none ∧ c.beamCeiling ≤ d ∧ classify c d = .unclassified) := by
  rcases hm : firstMatch c d with _ | k
  · by_cases hd : d < c.beamCeiling
    · exact .inr (.inl ⟨rfl, hd, by rw [classify, hm]; exact if_pos hd⟩)
    · exact .inr (.inr ⟨rfl, not_lt.1 hd, by rw [classify, hm]; exact if_neg hd⟩)
  · exact .inl ⟨k, rfl, by rw [classify, hm]⟩

/-! ### The arms of phase P5 (R107 to R111) -/

/-- All that an arm can do: nothing (a skipped sync, a discarded beam, an unclassifiable pulse), the origin and the axis
together, or one angle with `c_ret`. -/
theorem classArm_cases (cls : PulseClass) (s : State) :
    classArm cls s = s ∨
    (∃ k, cls = .sync k ∧ skipBit k = false ∧ classArm cls s = s.setOrigin s.cStart (Axis.ofBit (axisBit k))) ∨
    (cls = .beam ∧ s.cfg.deadZone ≤ relativeStart s ∧ relativeStart s ≤ s.cfg.windowMax ∧
      classArm cls s = (s.setAngle s.activeAxis (angleOf s.cfg (relativeStart s - s.cfg.deadZone))).setRet true) := by
  cases cls with
  | unclassified => exact .inl rfl
  | sync k =>
    rcases hk : skipBit k
    · exact .inr (.inl ⟨k, rfl, hk, by rw [classArm, syncArm, hk]; rfl⟩)
    · exact .inl (by rw [classArm, syncArm, hk]; rfl)
  | beam =>
    rw [classArm]
    by_cases h : relativeStart s < s.cfg.deadZone ∨ s.cfg.windowMax < relativeStart s
    · exact .inl (if_pos h)
    · exact .inr (.inr ⟨rfl, not_lt.1 (fun h' => h (.inl h')), not_lt.1 (fun h' => h (.inr h')), if_neg h⟩)

/-- The axis of a sync code (R65: bit 0, 0 is SWEEP and 1 is CREEP). -/
theorem ofBit_axisBit : ∀ k : SyncCode, Axis.ofBit (axisBit k) = if k.getLsbD 0 then .creep else .sweep := by decide

/-- The registers no arm writes. -/
theorem classArm_frame (cls : PulseClass) (s : State) :
    (classArm cls s).cfg = s.cfg ∧ (classArm cls s).ring = s.ring ∧ (classArm cls s).writeIndex = s.writeIndex ∧
    (classArm cls s).readIndex = s.readIndex ∧ (classArm cls s).updating = s.updating ∧
    (classArm cls s).enabled = s.enabled ∧ (classArm cls s).cphase = s.cphase ∧ (classArm cls s).cStart = s.cStart ∧
    (classArm cls s).cEnd = s.cEnd ∧ (classArm cls s).result = s.result ∧ (classArm cls s).input = s.input := by
  rcases classArm_cases cls s with h | ⟨k, -, -, h⟩ | ⟨-, -, -, h⟩ <;> rw [h] <;>
    exact ⟨rfl, rfl, rfl, rfl, rfl, rfl, rfl, rfl, rfl, rfl, rfl⟩

/-- An arm reads no shared state (R106): the ring and `writeIndex` pass through it. -/
theorem classArm_shared (cls : PulseClass) (s : State) (m : Memory) (w : Index) :
    classArm cls { s with ring := m, writeIndex := w } = { classArm cls s with ring := m, writeIndex := w } := by
  cases cls with
  | unclassified => rfl
  | sync k => rcases hk : skipBit k <;> simp only [classArm, syncArm, hk] <;> rfl
  | beam =>
    by_cases h : relativeStart s < s.cfg.deadZone ∨ s.cfg.windowMax < relativeStart s
    · have e : classArm .beam s = s := if_pos h
      rw [e]
      exact if_pos h
    · have e : classArm .beam s =
          (s.setAngle s.activeAxis (angleOf s.cfg (relativeStart s - s.cfg.deadZone))).setRet true := if_neg h
      rw [e]
      exact if_neg h

/-! ### The phases (R103 to R112) -/

theorem beginOp_eq (s : State) : beginOp s = { s with updating := true, cphase := .p1, result := .nothing } := rfl

/-- All that phase P1 can do. -/
theorem phaseCheck_cases (s : State) :
    (s.readIndex = s.writeIndex ∧ phaseCheck s = endTick s false) ∨
    (s.readIndex ≠ s.writeIndex ∧ phaseCheck s = toPhase s .p2) := by
  by_cases h : s.readIndex = s.writeIndex
  · exact .inl ⟨h, if_pos h⟩
  · exact .inr ⟨h, if_neg h⟩

theorem phaseSeek_eq (s : State) :
    phaseSeek s = { s with readIndex := decMod s.cfg.IW s.writeIndex, cphase := .p3, result := .nothing } := rfl

theorem phaseLoadStart_eq (s : State) :
    phaseLoadStart s = { s with cStart := slotRead s s.readIndex .start, cphase := .p4, result := .nothing } := rfl

theorem phaseLoadEnd_eq (s : State) :
    phaseLoadEnd s = { s with cEnd := slotRead s s.readIndex .finish, cphase := .p5, result := .nothing } := rfl

theorem phaseDecode_eq (s : State) :
    phaseDecode s = toPhase (classArm (classify s.cfg (latchedDuration s)) (s.setRet false)) .p6 := rfl

theorem phaseAdvance_eq (s : State) :
    phaseAdvance s = { s with
      readIndex := incMod s.cfg.IW s.readIndex, updating := false, cphase := .idle, result := .bool s.cRet } := rfl

/-- All that a whole tick can do (R113): end at P1 with no data, or run P2 to P6 from the state BEGIN and P1 leave. -/
theorem wholeTick_cases (s : State) :
    (s.readIndex = s.writeIndex ∧ wholeTick s = endTick (beginOp s) false) ∨
    (s.readIndex ≠ s.writeIndex ∧ wholeTick s =
      phaseAdvance (phaseDecode (phaseLoadEnd (phaseLoadStart (phaseSeek (toPhase (beginOp s) .p2)))))) := by
  rcases phaseCheck_cases (beginOp s) with ⟨hi, e⟩ | ⟨hi, e⟩
  · exact .inl ⟨hi, by rw [wholeTick, e]; exact if_pos rfl⟩
  · exact .inr ⟨hi, by rw [wholeTick, e]; exact if_neg (fun h => nomatch h)⟩

/-! ### Runs (R48) -/

/-- A run of two lists is the run of the first followed by the run of the second from where it ends. -/
theorem runInstrs_append {is : List Instr} {s t : State} (h : runInstrs is s = .next t) (js : List Instr) :
    runInstrs (is ++ js) s = runInstrs js t := by
  induction is generalizing s with
  | nil => rw [← Host.Outcome.next.inj h, List.nil_append]
  | cons i is ih =>
    rw [List.cons_append, runInstrs]
    rw [runInstrs] at h
    split at h
    · exact ih h
    · exact nomatch h
    · exact nomatch h

/-- One operation that completes, then the rest. -/
theorem runInstrs_cons {i : Instr} {s t : State} (h : exec i s = .next t) (is : List Instr) :
    runInstrs (i :: is) s = runInstrs is t := by rw [runInstrs, h]

end Sys2Proof.Machine
end

