-- ==== Sys2Proof/Laws/Decode.lean ====
section
/-! SUPPORT. Laws/Decode.lean: the two fields of an event word (R61), and what a bare operation decodes to (R64). -/

namespace Sys2Proof

/-- The decoder finds the two fields of `{op, t}` again (R61). -/
theorem decode_word (c : Config) (op : Nat) {t : Nat} (ht : t < 2 ^ c.W) :
    decode c (op * 2 ^ c.W + t) = decodeOp op t := by
  have hp := Nat.two_pow_pos c.W
  rw [decode, Nat.mul_comm, Nat.mul_add_div hp, Nat.div_eq_of_lt ht, Nat.add_zero, Nat.mul_add_mod,
    Nat.mod_eq_of_lt ht]

/-- The word of an event instruction is decoded from its code and its `t` field. -/
theorem decode_encode_ev {c : Config} {i : Instr} (hf : i.format = .ev) (hw : i.WF c) :
    decode c (encode c i) = decodeOp i.code i.tField := by
  rw [encode, hf]
  exact decode_word c i.code hw

/-- A bare operation is accepted with a zero `t` field and rejected with any other (R63, R64 (b)). -/
theorem bareOp_cases (i : Instr) (t : Nat) :
    (t = 0 ∧ bareOp i t = .ok i) ∨ (t ≠ 0 ∧ bareOp i t = .error .nonzeroOperand) := by
  by_cases h : t = 0
  · exact .inl ⟨h, if_pos h⟩
  · exact .inr ⟨h, if_neg h⟩

end Sys2Proof
end

