-- ==== Sys2Proof/Laws/PerInstr.lean ====
section
/-! SUPPORT. Laws/PerInstr.lean: the family `EncodingFits`: the word of a well-formed instruction has the bits of its
format (R61, R68), one lemma per constructor. -/

namespace Sys2Proof.Laws.EncodingFits

/-- The word fits in the format's width. -/
def Statement (i : Instr) : Prop := ∀ c : Config, i.WF c → encode c i < 2 ^ i.format.width c

/-- An event word: a code of four bits above a field of W bits. -/
theorem ev_fits {i : Instr} (hf : i.format = .ev) (hc : i.code < 16) : Statement i := by
  intro c hw
  have hw' : i.tField + 1 ≤ 2 ^ c.W := hw
  rw [encode, hf]
  show i.code * 2 ^ c.W + i.tField < 2 ^ (c.W + 4)
  rw [pow_add]
  nlinarith [Nat.two_pow_pos c.W]

theorem reset : Statement .reset := ev_fits rfl (by decide)
theorem setup : Statement .setup := ev_fits rfl (by decide)
theorem edgeF (t : Ticks) : Statement (.edgeF t) := ev_fits rfl (by simp [Instr.code])
theorem edgeR (t : Ticks) : Statement (.edgeR t) := ev_fits rfl (by simp [Instr.code])
theorem poll : Statement .poll := ev_fits rfl (by decide)
theorem getX : Statement .getX := ev_fits rfl (by decide)
theorem getY : Statement .getY := ev_fits rfl (by decide)
theorem isUpd : Statement .isUpd := ev_fits rfl (by decide)
theorem beginTick : Statement .beginTick := ev_fits rfl (by decide)
theorem stepTick : Statement .stepTick := ev_fits rfl (by decide)
theorem reserved1010 (t : Nat) : Statement (.reserved1010 t) := ev_fits rfl (by simp [Instr.code])
theorem reserved1011 (t : Nat) : Statement (.reserved1011 t) := ev_fits rfl (by simp [Instr.code])
theorem reserved1100 (t : Nat) : Statement (.reserved1100 t) := ev_fits rfl (by simp [Instr.code])
theorem reserved1101 (t : Nat) : Statement (.reserved1101 t) := ev_fits rfl (by simp [Instr.code])
theorem reserved1110 (t : Nat) : Statement (.reserved1110 t) := ev_fits rfl (by simp [Instr.code])
theorem reserved1111 (t : Nat) : Statement (.reserved1111 t) := ev_fits rfl (by simp [Instr.code])
theorem idle : Statement .idle := fun _ _ => (by decide : 0 < 2 ^ 3)
theorem p1Check : Statement .p1Check := fun _ _ => (by decide : 1 < 2 ^ 3)
theorem p2Seek : Statement .p2Seek := fun _ _ => (by decide : 2 < 2 ^ 3)
theorem p3LoadStart : Statement .p3LoadStart := fun _ _ => (by decide : 3 < 2 ^ 3)
theorem p4LoadEnd : Statement .p4LoadEnd := fun _ _ => (by decide : 4 < 2 ^ 3)
theorem p5Decode : Statement .p5Decode := fun _ _ => (by decide : 5 < 2 ^ 3)
theorem p6Advance : Statement .p6Advance := fun _ _ => (by decide : 6 < 2 ^ 3)
theorem sync0 : Statement .sync0 := fun _ _ => (by decide : 0 < 2 ^ 3)
theorem sync1 : Statement .sync1 := fun _ _ => (by decide : 1 < 2 ^ 3)
theorem sync2 : Statement .sync2 := fun _ _ => (by decide : 2 < 2 ^ 3)
theorem sync3 : Statement .sync3 := fun _ _ => (by decide : 3 < 2 ^ 3)
theorem sync4 : Statement .sync4 := fun _ _ => (by decide : 4 < 2 ^ 3)
theorem sync5 : Statement .sync5 := fun _ _ => (by decide : 5 < 2 ^ 3)
theorem sync6 : Statement .sync6 := fun _ _ => (by decide : 6 < 2 ^ 3)
theorem sync7 : Statement .sync7 := fun _ _ => (by decide : 7 < 2 ^ 3)
theorem classNone : Statement .classNone := fun _ _ => (by decide : 0 < 2 ^ 2)
theorem classBeam : Statement .classBeam := fun _ _ => (by decide : 1 < 2 ^ 2)
theorem classSync : Statement .classSync := fun _ _ => (by decide : 2 < 2 ^ 2)

end Sys2Proof.Laws.EncodingFits
end

