-- ==== Sys2Proof/Laws/Producer.lean ====
section
/-! SUPPORT. Laws/Producer.lean: what an edge, and a sequence of edges, can do (R81 to R83). -/

namespace Sys2Proof.Machine

/-- While `enabled = 1` EDGE.R is the store of the start field (R81). -/
theorem exec_edgeR_enabled {s : State} (t : Ticks) (h : s.enabled = true) :
    exec (.edgeR t) s = .next ((latchRise t s).setResult .nothing) :=
  congrArg _ (takeEdgeInterrupt_enabled _ h)

/-- While `enabled = 1` EDGE.F is the store of the end field and the publish (R82). -/
theorem exec_edgeF_enabled {s : State} (t : Ticks) (h : s.enabled = true) :
    exec (.edgeF t) s = .next ((latchFall t s).setResult .nothing) :=
  congrArg _ (takeEdgeInterrupt_enabled _ h)

/-- An edge completes in every state and writes at most the ring, `writeIndex` and the result port. -/
theorem exec_edge {i : Instr} (h : isEdge i = true) (s : State) :
    ∃ m w, exec i s = .next { s with ring := m, writeIndex := w, result := .nothing } := by
  by_cases he : s.enabled = true
  · cases i <;> simp only [isEdge, Bool.false_eq_true] at h
    · exact ⟨_, _, exec_edgeF_enabled _ he⟩
    · exact ⟨_, _, exec_edgeR_enabled _ he⟩
  · have hd (k : State → State) : takeEdgeInterrupt k s = s.setResult .nothing :=
      takeEdgeInterrupt_disabled k (by simpa using he)
    cases i <;> simp only [isEdge, Bool.false_eq_true] at h
    all_goals exact ⟨s.ring, s.writeIndex, congrArg _ (hd _)⟩

/-- A sequence of edges completes from every state; every register but `writeIndex` keeps its value (R51, R149). -/
theorem runInstrs_edges {es : List Instr} (h : EdgesOnly es) (s : State) :
    ∃ m w r, runInstrs es s = .next { s with ring := m, writeIndex := w, result := r } := by
  induction es generalizing s with
  | nil => exact ⟨s.ring, s.writeIndex, s.result, rfl⟩
  | cons i es ih =>
    obtain ⟨m, w, hi⟩ := exec_edge (h i (by simp)) s
    obtain ⟨m', w', r, hr⟩ := ih (fun j hj => h j (by simp [hj])) { s with ring := m, writeIndex := w, result := .nothing }
    exact ⟨m', w', r, (runInstrs_cons hi es).trans hr⟩

end Sys2Proof.Machine
end

