-- ==== Sys2Proof/Tests/Slice0.lean ====
section
/-! SUPPORT. Tests/Slice0.lean: the smoke test of well-formedness, words written out from 30_encoding.md, one-step tests
whose expected values are those of 95_test_vectors.md, and a witness for the hypotheses of every obligation. -/

namespace Sys2Proof.Tests

open Sys2Proof.Machine

/-! ### Helpers -/

/-- The operation completes and the next state meets `p`. -/
def nextSat (o : Out) (p : State → Bool) : Bool :=
  match o with
  | .next t => p t
  | .fault _ | .refused _ => false

/-- The operation is refused for the reason `r`. -/
def refusedAs (o : Out) (r : Refusal) : Bool :=
  match o with
  | .refused q => q == r
  | .fault _ | .next _ => false

/-- Bring-up done, nothing published (R161). -/
def up : State := { State.reset with enabled := true }

/-- One record `{start, finish}` published in slot 0 and not yet read. -/
def published (start finish : Ticks) : State :=
  { up with ring := Memory.write (Memory.write [] 0 start) 1 finish, writeIndex := 1 }

/-- A tick at a phase, the record latched. -/
def latched (p : Phase) (start finish : Ticks) : State :=
  { published start finish with cphase := p, updating := true, cStart := start, cEnd := finish }

/-- The overlapping table of V-K: windows 0 and 1 share the duration 175. -/
def overlapping : Config :=
  let low := (Config.default.low.set 0 100).set 1 150
  let high := (Config.default.high.set 0 200).set 1 250
  { Config.default with low := low, high := high }

/-- The two-slot ring of vector V-C7. -/
def smallRing : Config := { Config.default with K := 1, IW := 1 }

/-- Bring-up done on that ring. -/
def smallUp : State := { up with cfg := smallRing }

/-! ### Well-formedness: one ill-formed term for each check, which the check refuses -/

theorem test_default_config_wf : Config.default.WF := by decide
theorem test_small_ring_wf : smallRing.WF := by decide
theorem test_narrow_timestamp_refused : ¬ { Config.default with W := 23 }.WF := by decide
theorem test_one_slot_refused : ¬ { Config.default with K := 0 }.WF := by decide
theorem test_index_below_capacity_refused : ¬ { Config.default with IW := 7 }.WF := by decide
theorem test_zero_unit_refused : ¬ { Config.default with u := 0 }.WF := by decide
theorem test_zero_span_refused : ¬ { Config.default with span := 0, windowMax := 1222222 }.WF := by decide
theorem test_window_max_mismatch_refused : ¬ { Config.default with windowMax := 6777778 }.WF := by decide
theorem test_empty_window_refused : ¬ { Config.default with high := Config.default.high.set 7 130417 }.WF := by decide
theorem test_overlapping_windows_refused : ¬ { Config.default with high := Config.default.high.set 0 67918 }.WF := by decide
/-- Program 5 of 95_test_vectors.md: a ceiling of 60000 is above 57501. -/
theorem test_ceiling_in_window_refused : ¬ { Config.default with beamCeiling := 60000 }.WF := by decide
theorem test_wide_constant_refused : ¬ { Config.default with high := Config.default.high.set 7 4294967296 }.WF := by decide
theorem test_tiny_format_refused : ¬ { Config.default with flt := { expBits := 3, fracBits := 23 } }.WF := by decide
theorem test_wide_timestamp_operand_refused : ¬ (Instr.edgeR 4294967296).WF Config.default := by decide

/-! ### Decoding, from the words of 30_encoding.md (R62, R65, R66, R68) and 95_test_vectors.md -/

theorem test_decode_reset : decode Config.default 0b000000000000000000000000000000000000 = .ok .reset := by decide
theorem test_decode_setup : decode Config.default 0b000100000000000000000000000000000000 = .ok .setup := by decide
theorem test_decode_edgeF : decode Config.default 0x20000F424 = .ok (.edgeF 62500) := by decide
theorem test_decode_edgeR : decode Config.default 0x3003D0900 = .ok (.edgeR 4000000) := by decide
theorem test_decode_poll : decode Config.default 0b010000000000000000000000000000000000 = .ok .poll := by decide
theorem test_decode_getX : decode Config.default 0x500000000 = .ok .getX := by decide
theorem test_decode_getY : decode Config.default 0x600000000 = .ok .getY := by decide
theorem test_decode_isUpd : decode Config.default 0x700000000 = .ok .isUpd := by decide
theorem test_decode_beginTick : decode Config.default 0x800000000 = .ok .beginTick := by decide
theorem test_decode_stepTick : decode Config.default 0b100100000000000000000000000000000000 = .ok .stepTick := by decide
theorem test_decode_reserved :
    decode Config.default 0xA00000000 = .ok (.reserved1010 0) ∧ decode Config.default 0xB00000001 = .ok (.reserved1011 1) ∧
    decode Config.default 0xC00000000 = .ok (.reserved1100 0) ∧ decode Config.default 0xD00000000 = .ok (.reserved1101 0) ∧
    decode Config.default 0xE00000000 = .ok (.reserved1110 0) ∧
    decode Config.default 0xFFFFFFFFF = .ok (.reserved1111 0xFFFFFFFF) := by decide
theorem test_decode_nonzero_operand : decode Config.default 0x400000001 = .error .nonzeroOperand := by decide
theorem test_decode_too_wide : decode Config.default 0x1000000000 = .error .notAWord := by decide
theorem test_decode_phases :
    [0b000, 0b001, 0b010, 0b011, 0b100, 0b101, 0b110].map decodePhase =
      [.idle, .p1Check, .p2Seek, .p3LoadStart, .p4LoadEnd, .p5Decode, .p6Advance].map .ok ∧
    decodePhase 0b111 = .error .notAWord := by decide
theorem test_decode_sync_codes :
    [0b000, 0b001, 0b010, 0b011, 0b100, 0b101, 0b110, 0b111].map decodeSyncCode =
      [.sync0, .sync1, .sync2, .sync3, .sync4, .sync5, .sync6, .sync7].map .ok := by decide
theorem test_decode_classes :
    [0b00, 0b01, 0b10].map decodeClass = [.classNone, .classBeam, .classSync].map .ok ∧
    decodeClass 0b11 = .error .notAWord := by decide
theorem test_table_words :
    decodeTableWord 40 0x300000064 = some (.edgeR 100) ∧ decodeTableWord 8 4 = some .p4LoadEnd := by decide
theorem test_encode_edge : encode Config.default (.edgeF 4010000) = 0x2003D3010 := by decide

/-! ### One step each -/

/-- V-R: RESET in the middle of a tick. -/
theorem test_reset : nextSat (exec .reset (latched .p4 5 62500)) (· == State.reset) = true := by decide
/-- V-H: SETUP, and a second one. -/
theorem test_setup : nextSat (exec .setup State.reset) (·.enabled) = true := by decide
theorem test_second_setup : refusedAs (exec .setup up) .secondSetup = true := by decide
/-- V-P1. -/
theorem test_rising_edge :
    nextSat (exec (.edgeR 1000) up) (fun t => t.ring == [(0, 1000)] && t.writeIndex == 0) = true := by decide
/-- V-P2 and the wrap of V-P8. -/
theorem test_falling_edge :
    nextSat (exec (.edgeF 63500) { up with ring := [(0, 1000)] })
      (fun t => t.ring == [(0, 1000), (1, 63500)] && t.writeIndex == 1) = true := by decide
theorem test_falling_edge_wraps :
    nextSat (exec (.edgeF 440) { up with writeIndex := 255 }) (fun t => t.writeIndex == 0) = true := by decide
/-- V-P3: no effect before SETUP. -/
theorem test_edge_before_setup : nextSat (exec (.edgeF 63500) State.reset) (· == State.reset) = true := by decide
/-- S7: the beam's POLL, and V-P9: a pulse across the wrap of the time source. -/
theorem test_poll_beam :
    nextSat (exec .poll (published 4000000 4010000))
      (fun t => t.result == .bool true && t.angleSweep == 0x37800000 && t.readIndex == 1) = true := by decide
theorem test_poll_wrapped_sync :
    nextSat (exec .poll (published 4294967040 62244))
      (fun t => t.result == .bool false && t.syncPulseStart == 4294967040 && t.activeAxis == .sweep) = true := by decide
/-- V-C1, V-H: BEGIN, and one inside a tick. -/
theorem test_begin : nextSat (exec .beginTick up) (fun t => t.updating && t.cphase == .p1) = true := by decide
theorem test_begin_in_tick : refusedAs (exec .beginTick (latched .p1 0 0)) .reentrantTick = true := by decide
/-- V-H: STEP with no tick, ISUPD inside one, and the accessors. -/
theorem test_step_while_idle : refusedAs (exec .stepTick up) .stepWhileIdle = true := by decide
theorem test_isUpd_in_tick : nextSat (exec .isUpd (latched .p2 0 0)) (·.result == .bool true) = true := by decide
theorem test_getX : nextSat (exec .getX { up with angleSweep := 7, angleCreep := 9 }) (·.result == .float 7) = true := by decide
theorem test_getY : nextSat (exec .getY { up with angleSweep := 7, angleCreep := 9 }) (·.result == .float 9) = true := by decide
theorem test_getX_in_tick : refusedAs (exec .getX (latched .p3 0 0)) .accessorDuringTick = true := by decide
theorem test_reserved : refusedAs (exec (.reserved1011 5) up) .reservedOp = true := by decide
theorem test_idle_row : refusedAs (exec .idle up) .stepWhileIdle = true := by decide
/-- V-C1: no data. -/
theorem test_p1_no_data :
    nextSat (exec .stepTick { up with cphase := .p1, updating := true })
      (fun t => t.result == .bool false && t.cphase == .idle && !t.updating) = true := by decide
/-- V-C6: P2 with `writeIndex = 0`, and P6's wrap. -/
theorem test_p2_wraps :
    nextSat (exec .p2Seek { up with cphase := .p2, updating := true, readIndex := 1 }) (·.readIndex == 255) = true := by decide
theorem test_p6_wraps :
    nextSat (exec .p6Advance { up with cphase := .p6, updating := true, readIndex := 255, cRet := true })
      (fun t => t.readIndex == 0 && t.result == .bool true && t.cphase == .idle) = true := by decide
/-- V-C2: the two loads. -/
theorem test_p3_loads_start :
    nextSat (exec .p3LoadStart { published 17 62500 with cphase := .p3, updating := true }) (·.cStart == 17) = true := by decide
theorem test_p4_loads_end :
    nextSat (exec .p4LoadEnd { published 17 62500 with cphase := .p4, updating := true }) (·.cEnd == 62500) = true := by decide
/-- V-C8, code 1; V-C7, the torn sync. -/
theorem test_p5_sync_creep :
    nextSat (exec .p5Decode (latched .p5 777 73693))
      (fun t => t.syncPulseStart == 777 && t.activeAxis == .creep && !t.cRet && t.cphase == .p6) = true := by decide
theorem test_p5_skipped :
    nextSat (exec .p5Decode (latched .p5 777 104943))
      (fun t => t.syncPulseStart == 0 && t.activeAxis == .sweep && !t.cRet) = true := by decide
/-- R65's table. -/
theorem test_sync3_row :
    nextSat (exec .sync3 (latched .p5 777 0)) (fun t => t.syncPulseStart == 777 && t.activeAxis == .creep) = true := by decide
theorem test_sync6_row : nextSat (exec .sync6 (latched .p5 777 0)) (· == latched .p5 777 0) = true := by decide
/-- S5: the window is closed at its upper end and open beyond it. -/
theorem test_beam_row_at_window_max :
    nextSat (exec .classBeam (latched .p5 6777777 6787777)) (·.angleSweep == 0x42700000) = true := by decide
theorem test_beam_row_beyond_window :
    nextSat (exec .classBeam (latched .p5 6777778 6787778)) (· == latched .p5 6777778 6787778) = true := by decide
theorem test_class_sync_row :
    nextSat (exec .classSync (latched .p5 777 73693)) (·.activeAxis == .creep) = true := by decide

/-! ### The classifier and the angle converter -/

/-- V-K, at the edges of window 0, at the ceiling, and the first match on an overlapping table. -/
theorem test_classify_boundaries :
    classify Config.default 49999 = .beam ∧ classify Config.default 50000 = .unclassified ∧
    classify Config.default 57500 = .unclassified ∧ classify Config.default 57501 = .sync 0 ∧
    classify Config.default 67499 = .sync 0 ∧ classify Config.default 67500 = .unclassified ∧
    classify Config.default 130417 = .sync 7 ∧ classify Config.default 140416 = .unclassified := by decide
theorem test_classify_first_match :
    classify overlapping 175 = .sync 0 := by decide
/-- V-A. -/
theorem test_angle_vectors :
    angleOf Config.default 0 = 0xC2700000 ∧ angleOf Config.default 1 = 0xC26FFFFA ∧
    angleOf Config.default 2777777 = 0xB7400000 ∧ angleOf Config.default 3000000 = 0x409999B0 ∧
    angleOf Config.default 5555555 = 0x42700000 ∧ angleOf (Config.ofUnit 2) 1 = 0xC26FFFFD := by decide

/-! ### Witnesses: a concrete state and operands that meet the hypotheses of each obligation -/

theorem witness_up_wf : up.WF := by constructor <;> first | decide | trivial
theorem witness_smallUp_wf : smallUp.WF := by constructor <;> first | decide | trivial
theorem witness_published_wf : (published 777 104943).WF := by constructor <;> first | decide | trivial
theorem witness_p1_wf : { published 0 62500 with cphase := .p1, updating := true }.WF := by
  constructor <;> first | decide | trivial
theorem witness_p2_wf : { published 0 62500 with cphase := .p2, updating := true }.WF := by
  constructor <;> first | decide | trivial
theorem witness_step_wf : { up with input := [0x300000064] }.WF := by constructor <;> first | decide | trivial

theorem witness_DecodeInvertsEncode :
    (Instr.edgeR 4294967295).WF Config.default ∧ (Instr.reserved1111 4294967295).WF Config.default := by decide
theorem witness_EncodeInvertsDecode : decodeFormat Config.default .ev 0x2FFFFFFFF = .ok (.edgeF 4294967295) := by decide
theorem witness_ReservedWords :
    up.cfg.WF ∧ { up with input := [0xA00000000] }.input = 0xA00000000 :: [] ∧
    10 ≤ 0xA00000000 / 2 ^ up.cfg.W ∧ 0xFFFFFFFFF / 2 ^ up.cfg.W ≤ 15 :=
  ⟨test_default_config_wf, rfl, by decide, by decide⟩
theorem witness_NonzeroWords :
    0x900000001 / 2 ^ up.cfg.W ≤ 9 ∧ 0x900000001 / 2 ^ up.cfg.W ≠ 2 ∧ 0x900000001 / 2 ^ up.cfg.W ≠ 3 ∧
    0x900000001 % 2 ^ up.cfg.W ≠ 0 ∧ 0x0FFFFFFFF / 2 ^ up.cfg.W ≤ 9 ∧ 0x0FFFFFFFF % 2 ^ up.cfg.W ≠ 0 := by decide
theorem witness_untimely_words : up.enabled = true ∧ up.cphase = .idle ∧ (latched .p6 0 0).cphase ≠ .idle := by decide
theorem witness_StepRunsTheDecodedOperation :
    { up with input := [0x300000064] }.cfg.WF ∧ { up with input := [0x300000064] }.input = 0x300000064 :: [] ∧
    decode up.cfg 0x300000064 = .ok (.edgeR 100) := ⟨test_default_config_wf, rfl, by decide⟩
theorem witness_StepWithoutAnOperation :
    up.cfg.WF ∧ up.input = [] ∧ decode up.cfg 0x400000001 = .error .nonzeroOperand ∧
    ¬ { Config.default with W := 23 }.WF :=
  ⟨test_default_config_wf, rfl, by decide, test_narrow_timestamp_refused⟩
theorem witness_overlapping_table :
    { Config.default with high := Config.default.high.set 0 67918 }.Matches 0 67917 ∧
    { Config.default with high := Config.default.high.set 0 67918 }.Matches 1 67917 := by decide
theorem witness_table_in_beam_range :
    57501 < { Config.default with beamCeiling := 57502 }.beamCeiling ∧
    { Config.default with beamCeiling := 57502 }.Matches 0 57501 := by decide
theorem witness_empty_window :
    { Config.default with high := Config.default.high.set 7 130417 }.highOf 7 ≤
      { Config.default with high := Config.default.high.set 7 130417 }.lowOf 7 + 1 := by decide
theorem witness_PlacedTableWordRunsNext :
    up.cfg = Config.default ∧ up.cfg.WF ∧ decodeTableWord 40 0x200000001 = some (.edgeF 1) ∧
    decodeTableWord 8 0 = some .idle ∧ decodeTableWord 8 6 = some .p6Advance :=
  ⟨rfl, test_default_config_wf, by decide, by decide, by decide⟩
theorem witness_TraceRunsAsItsOperations :
    State.reset.cfg.WF ∧
    ∀ i ∈ [Instr.setup, .edgeR 0, .edgeF 62500, .poll], i.format = .ev ∧ i.WF State.reset.cfg :=
  ⟨test_default_config_wf, by decide⟩
theorem witness_SetupEnablesOnce : State.reset.enabled = false ∧ up.enabled = true := by decide
theorem witness_edges :
    up.ring.wf ∧ up.enabled = true ∧ State.reset.enabled = false ∧ 4294967295 < 2 ^ Config.default.W := by decide
theorem witness_AlternatingPulses :
    up.enabled = true ∧ [(100, 110), (5000, 67500)].length ≤ 0 + up.cfg.capacity := by decide
theorem witness_IndexAliasing :
    smallUp.enabled = true ∧ smallUp.cphase = .idle ∧ smallUp.readIndex = smallUp.writeIndex ∧
    EdgesOnly [.edgeF 5, .edgeF 5] ∧ publishes [.edgeF 5, .edgeF 5] % 2 ^ smallUp.cfg.IW = 0 := by decide
theorem witness_ProducerIgnoresTheConsumer :
    EdgesOnly [.edgeR 1, .edgeF 2] ∧ up.cfg = (latched .p3 0 0).cfg ∧
    up.enabled = { latched .p3 0 0 with ring := [], writeIndex := 0 }.enabled ∧
    up.ring = { latched .p3 0 0 with ring := [], writeIndex := 0 }.ring := by decide
theorem witness_phases :
    (latched .p1 0 0).cphase = .p1 ∧ (latched .p2 0 0).cphase = .p2 ∧ (latched .p3 0 0).cphase = .p3 ∧
    (latched .p4 0 0).cphase = .p4 ∧ (latched .p5 0 0).cphase = .p5 ∧ (latched .p6 0 0).cphase = .p6 := by decide
theorem witness_check_phase : up.readIndex = up.writeIndex ∧ (published 0 1).readIndex ≠ (published 0 1).writeIndex := by decide
/-- The three cases of a beam at the edges of the window, and the other classes. -/
theorem witness_DecodePhase_beam :
    classify (latched .p5 1222222 1232222).cfg 10000 = .beam ∧
    ((10000 : Nat) : Int) = (((latched .p5 1222222 1232222).cEnd : Int) - (latched .p5 1222222 1232222).cStart) %
      (2 ^ (latched .p5 1222222 1232222).cfg.W : Nat) ∧
    ((1222222 : Nat) : Int) =
      (((latched .p5 1222222 1232222).cStart : Int) - (latched .p5 1222222 1232222).syncPulseStart) %
      (2 ^ (latched .p5 1222222 1232222).cfg.W : Nat) ∧
    Config.default.deadZone ≤ 1222222 ∧ 1222222 ≤ Config.default.windowMax ∧ 1222221 < Config.default.deadZone ∧
    Config.default.windowMax < 6777778 := by decide
theorem witness_DecodePhase_other :
    classify Config.default 72916 = .sync 1 ∧ (1 : SyncCode).getLsbD 2 = false ∧ classify Config.default 104166 = .sync 4 ∧
    (4 : SyncCode).getLsbD 2 = true ∧ classify Config.default 50000 = .unclassified := by decide
theorem witness_class_not_sync : ∀ k : SyncCode, classify Config.default 10000 ≠ .sync k := by decide
theorem witness_Poll :
    up.cphase = .idle ∧ up.readIndex = up.writeIndex ∧ (published 0 1).cphase = .idle ∧
    (published 0 1).readIndex ≠ (published 0 1).writeIndex ∧ (latched .p1 0 0).cphase ≠ .idle := by decide
theorem witness_PollDecodesTheNewestRecord :
    up.enabled = true ∧ up.cphase = .idle ∧ up.readIndex ≠ (up.writeIndex + 1) % 2 ^ up.cfg.IW := by decide
theorem witness_SkippedSync :
    (published 777 104943).cphase = .idle ∧ (published 777 104943).readIndex ≠ (published 777 104943).writeIndex ∧
    classify (published 777 104943).cfg (subMod 32 (slotRead (published 777 104943) 0 .finish)
      (slotRead (published 777 104943) 0 .start)) = .sync 4 ∧
    decMod 8 (published 777 104943).writeIndex = 0 := by decide
theorem witness_SyncThenBeam :
    1000 < 2 ^ up.cfg.W ∧ 62500 < 2 ^ up.cfg.W ∧ 10000 < 2 ^ up.cfg.W ∧ 5555555 ≤ up.cfg.span ∧
    classify up.cfg 62500 = .sync 0 ∧ (0 : SyncCode).getLsbD 2 = false ∧ classify up.cfg 10000 = .beam := by decide
theorem witness_BeamBeforeAnySync :
    Config.default.deadZone ≤ 4000000 ∧ 4000000 ≤ Config.default.windowMax ∧ 4010000 < 2 ^ Config.default.W ∧
    classify Config.default (subMod Config.default.W 4010000 4000000) = .beam := by decide
theorem witness_EveryTickEnds :
    (latched .p1 0 62500).cphase ≠ .idle ∧ ∀ n < 6, EdgesOnly ((fun _ => [.edgeR 1, .edgeF 2] : Nat → List Instr) n) := by decide
theorem witness_SteppedTick :
    (latched .p2 0 0).cphase = .p2 ∧ (published 0 62500).readIndex ≠ (published 0 62500).writeIndex ∧
    EdgesOnly [.edgeR 4000000, .edgeF 4010000] ∧
    publishes [.edgeR 4000000, .edgeF 4010000] + publishes [] < up.cfg.capacity - 1 := by decide
theorem witness_LateEdges : isEdge (.edgeF 1) = true ∧ (latched .p6 0 0).cphase = .p6 := by decide
theorem witness_SeekTakesAPublish :
    (published 0 62500).enabled = true ∧ (published 0 62500).readIndex ≠ (published 0 62500).writeIndex ∧
    EdgesOnly [.edgeR 4000000, .edgeF 4010000] := by decide
/-- An operation of each agent that completes. -/
theorem witness_completing_operations :
    nextSat (exec (.edgeF 1) up) (fun _ => true) = true ∧ nextSat (exec .poll up) (fun _ => true) = true ∧
    nextSat (exec .setup State.reset) (fun _ => true) = true ∧ Instr.poll ≠ .reset := by decide
theorem witness_angle_changes :
    nextSat (exec .poll (published 4000000 4010000)) (fun t => t.angle .sweep != 0) = true := by decide
theorem witness_origin_changes :
    nextSat (exec .poll (published 777 73693)) (fun t => t.syncPulseStart != 0) = true ∧
    nextSat (exec .p5Decode (latched .p5 777 73693)) (fun t => t.syncPulseStart != 0) = true ∧
    nextSat (exec .stepTick (latched .p5 777 73693)) (fun t => t.activeAxis != .sweep) = true ∧
    nextSat (exec .sync0 (latched .p5 777 0)) (fun t => t.syncPulseStart != 0) = true ∧
    nextSat (exec .sync3 (latched .p5 777 0)) (fun t => t.activeAxis != .sweep) = true ∧
    nextSat (exec .classSync (latched .p5 777 73693)) (fun t => t.activeAxis != .sweep) = true ∧
    nextSat (exec .classSync (latched .p5 777 10777)) (fun t => t.syncPulseStart != 0) = true := by decide
theorem witness_UpdatingTracksTheSequencer :
    Instr.beginTick.format = .ev ∧ (up.updating = true ↔ up.cphase ≠ .idle) ∧
    nextSat (exec .beginTick up) (fun _ => true) = true := by decide
theorem witness_EveryStepKeepsTheInvariant :
    nextSat (step { up with input := [0x300000064] }) (fun t => t.ring == [(0, 100)]) = true := by decide
theorem witness_WellFormedTablesMatchOnce : Config.default.Matches 3 93750 ∧ 49999 < Config.default.beamCeiling := by decide
theorem witness_DefaultTable : 4294967295 < 2 ^ 32 := by decide
theorem witness_ScaledConfigurations : 1 ≤ 633 ∧ 6777777 * 633 ≤ 2 ^ 32 - 1 := by decide
theorem witness_RoundingIsToNearest :
    FltRepresentable { expBits := 4, fracBits := 3 } 18 ∧ fltRound { expBits := 4, fracBits := 3 } 17 1 = 16 :=
  ⟨⟨9, 1, by decide, by decide⟩, by decide⟩
theorem witness_angles :
    5555555 ≤ Config.default.span ∧ fltOverflows Config.default.flt (fltOfNat Config.default.flt Config.default.span) = false := by
  decide

end Sys2Proof.Tests
end

/-! PROOFS. The statements of 00_scope.md: which configurations have a meaning (R7), the time unit (R8), the rounding
(R10), and a step that runs no operation (R38, R64). -/

namespace Sys2Proof

/-! ### The parts of a well-formed configuration (R95) -/

theorem Config.WF.nonEmptyWindows {c : Config} (h : c.WF) : c.NonEmptyWindows := by
  obtain ⟨-, -, -, -, -, -, hne, -⟩ := h
  exact hne

theorem Config.WF.disjointWindows {c : Config} (h : c.WF) : c.DisjointWindows := by
  obtain ⟨-, -, -, -, -, -, -, hdj, -⟩ := h
  exact hdj

theorem Config.WF.ceilingBelowWindows {c : Config} (h : c.WF) : c.CeilingBelowWindows := by
  obtain ⟨-, -, -, -, -, -, -, -, hcl, -⟩ := h
  exact hcl

/-! ### The default table and its scaling by the unit (R8, R96) -/

theorem defaultLow_eq_mul (u c : Nat) : defaultLow u c = defaultLow 1 c * u := by
  rw [defaultLow, defaultLow, Nat.mul_one]

theorem defaultHigh_eq_mul (u c : Nat) : defaultHigh u c = defaultHigh 1 c * u := by
  rw [defaultHigh, defaultHigh, Nat.mul_one]

theorem lowOf_ofUnit_eq_defaultLow (u : Nat) (k : SyncCode) : (Config.ofUnit u).lowOf k = defaultLow u k.toNat := by
  obtain ⟨i, hi⟩ := k
  interval_cases i <;> rfl

theorem highOf_ofUnit_eq_defaultHigh (u : Nat) (k : SyncCode) :
    (Config.ofUnit u).highOf k = defaultHigh u k.toNat := by
  obtain ⟨i, hi⟩ := k
  interval_cases i <;> rfl

/-- The lower bounds are the default ones, multiplied by the unit once (R8). -/
theorem lowOf_ofUnit (u : Nat) (k : SyncCode) : (Config.ofUnit u).lowOf k = Config.default.lowOf k * u := by
  rw [Config.default, lowOf_ofUnit_eq_defaultLow, lowOf_ofUnit_eq_defaultLow, defaultLow_eq_mul]

/-- The upper bounds are the default ones, multiplied by the unit once (R8). -/
theorem highOf_ofUnit (u : Nat) (k : SyncCode) : (Config.ofUnit u).highOf k = Config.default.highOf k * u := by
  rw [Config.default, highOf_ofUnit_eq_defaultHigh, highOf_ofUnit_eq_defaultHigh, defaultHigh_eq_mul]

theorem beamCeiling_ofUnit (u : Nat) : (Config.ofUnit u).beamCeiling = Config.default.beamCeiling * u :=
  rfl

/-- The default windows have room for a duration between their bounds. -/
theorem default_lowOf_add_two_le : ∀ k, Config.default.lowOf k + 2 ≤ Config.default.highOf k := by decide

/-- The default windows do not share a bound: this is stronger than R95 (b), whose slack of one tick does not scale. -/
theorem default_windows_apart :
    ∀ k j, k ≠ j →
      Config.default.highOf k ≤ Config.default.lowOf j ∨ Config.default.highOf j ≤ Config.default.lowOf k := by
  decide

/-- The default ceiling is below every lower bound: stronger than R95 (c) for the same reason. -/
theorem default_ceiling_le_lowOf : ∀ k, Config.default.beamCeiling ≤ Config.default.lowOf k := by decide

/-- No bound of the default table exceeds the default `WINDOW_MAX`, so that constant alone limits the unit. -/
theorem default_bounds_le_windowMax : ∀ k, Config.default.lowOf k ≤ 6777777 ∧ Config.default.highOf k ≤ 6777777 := by
  decide

theorem ofUnit_nonEmptyWindows {u : Nat} (hu : 1 ≤ u) : (Config.ofUnit u).NonEmptyWindows := by
  intro k _
  rw [lowOf_ofUnit, highOf_ofUnit]
  have h := Nat.mul_le_mul_right u (default_lowOf_add_two_le k)
  rw [Nat.add_mul] at h
  omega

theorem ofUnit_disjointWindows (u : Nat) : (Config.ofUnit u).DisjointWindows := by
  intro k _ j _ hkj
  rw [lowOf_ofUnit, lowOf_ofUnit, highOf_ofUnit, highOf_ofUnit]
  exact (default_windows_apart k j hkj).imp (fun h => Nat.le_succ_of_le (Nat.mul_le_mul_right u h))
    (fun h => Nat.le_succ_of_le (Nat.mul_le_mul_right u h))

theorem ofUnit_ceilingBelowWindows (u : Nat) : (Config.ofUnit u).CeilingBelowWindows := by
  intro k _
  rw [lowOf_ofUnit, beamCeiling_ofUnit]
  exact Nat.le_succ_of_le (Nat.mul_le_mul_right u (default_ceiling_le_lowOf k))

/-- A base value up to that of `WINDOW_MAX` fits when the scaled `WINDOW_MAX` does. -/
theorem ofUnit_fits {u v : Nat} (hmax : 6777777 * u ≤ 2 ^ 32 - 1) (hv : v ≤ 6777777) :
    (Config.ofUnit u).Fits (v * u) :=
  le_trans (Nat.mul_le_mul_right u hv) hmax

theorem ofUnit_constantsFit {u : Nat} (hmax : 6777777 * u ≤ 2 ^ 32 - 1) : (Config.ofUnit u).ConstantsFit := by
  refine ⟨fun k _ => ?_, ofUnit_fits hmax ?_, ofUnit_fits hmax ?_, ofUnit_fits hmax ?_, ofUnit_fits hmax le_rfl⟩
  · rw [lowOf_ofUnit, highOf_ofUnit]
    obtain ⟨hlow, hhigh⟩ := default_bounds_le_windowMax k
    exact ⟨ofUnit_fits hmax hlow, ofUnit_fits hmax hhigh⟩
  all_goals omega

end Sys2Proof

namespace Sys2Proof.Machine

/-! ### A step that runs no operation (logs 3, 12 and 13) -/

theorem step_of_input_nil {s : State} (hc : s.cfg.WF) (hi : s.input = []) : step s = .next s := by
  rw [step, if_pos hc, fetch_nil hi]

theorem step_of_decode_error {s : State} {w : EventWord} {ws : List EventWord} {e : DecodeError}
    (hc : s.cfg.WF) (hi : s.input = w :: ws) (hd : decode s.cfg w = .error e) : step s = .refused (refusalOf e) := by
  simp only [step, if_pos hc, fetch_cons hi, hd]

theorem step_of_not_wf {s : State} (hc : ¬ s.cfg.WF) : step s = .refused .illFormedConfig := by
  rw [step, if_neg hc]

/-- Settles O7: the three ways a step has nothing to run. -/
theorem stepWithoutAnOperation : Obligations.StepWithoutAnOperation :=
  ⟨fun _ hc hi => step_of_input_nil hc hi, fun _ _ _ _ hc hi hd => step_of_decode_error hc hi hd,
    fun _ hc => step_of_not_wf hc⟩

/-! ### Ill-formed tables, put in terms of durations (R95) -/

/-- R95 (b): no duration lies in two windows of a well-formed table. -/
theorem matches_unique {c : Config} (hc : c.WF) {k j : SyncCode} {d : Ticks} (hk : c.Matches k d)
    (hj : c.Matches j d) : k = j := by
  by_contra hkj
  obtain ⟨hlowk, hhighk⟩ := hk
  obtain ⟨hlowj, hhighj⟩ := hj
  rcases hc.disjointWindows k (mem_syncCodes k) j (mem_syncCodes j) hkj with h | h
  · exact absurd hlowj (not_lt.2 (Nat.le_of_lt_succ (lt_of_lt_of_le hhighk h)))
  · exact absurd hlowk (not_lt.2 (Nat.le_of_lt_succ (lt_of_lt_of_le hhighj h)))

/-- R95 (c): a duration in a window of a well-formed table is no beam's. -/
theorem beamCeiling_le_of_matches {c : Config} (hc : c.WF) {k : SyncCode} {d : Ticks} (hk : c.Matches k d) :
    c.beamCeiling ≤ d := by
  have := hc.ceilingBelowWindows k (mem_syncCodes k)
  omega

/-- Settles O8: each of the three faults contradicts a clause of R95, and `step` gives such a table no meaning. -/
theorem overlappingOrEmptyTablesAreRefused : Obligations.OverlappingOrEmptyTablesAreRefused := by
  intro s hbad
  refine step_of_not_wf fun hc => ?_
  rcases hbad with ⟨k, j, d, hkj, hk, hj⟩ | ⟨k, d, hd, hk⟩ | ⟨k, hk⟩
  · exact hkj (matches_unique hc hk hj)
  · exact absurd hd (not_lt.2 (beamCeiling_le_of_matches hc hk))
  · exact absurd hk (not_le.2 (hc.nonEmptyWindows k (mem_syncCodes k)))

/-! ### The configuration scaled by the unit (R8) -/

/-- Settles O53: every part of R95 holds of the scaled table because its bounds are the default ones times `u`. -/
theorem scaledConfigurationsAreWellFormed : Obligations.ScaledConfigurationsAreWellFormed := by
  intro u hu hmax
  have hspan : 1 ≤ (Config.ofUnit u).span := Nat.mul_pos (by decide) hu
  have hwindow : (Config.ofUnit u).windowMax = (Config.ofUnit u).deadZone + (Config.ofUnit u).span :=
    Nat.add_mul 1222222 5555555 u
  have hflt : FltFormat.binary32.WF := by decide
  have hW : 24 ≤ 32 := by decide
  have hK : 1 ≤ 8 := by decide
  exact ⟨hW, hK, le_rfl, hu, hspan, hwindow, ofUnit_nonEmptyWindows hu, ofUnit_disjointWindows u,
    ofUnit_ceilingBelowWindows u, ofUnit_constantsFit hmax, hflt⟩

/-- The scan depends on which windows match, and on nothing else. -/
theorem firstMatch_congr {c c' : Config} {d d' : Ticks} (h : ∀ k, c.Matches k d ↔ c'.Matches k d') :
    firstMatch c d = firstMatch c' d' := by
  simp only [firstMatch, h]

/-- The class depends on which windows match and on the side of the ceiling. -/
theorem classify_congr {c c' : Config} {d d' : Ticks} (hm : ∀ k, c.Matches k d ↔ c'.Matches k d')
    (hb : d < c.beamCeiling ↔ d' < c'.beamCeiling) : classify c d = classify c' d' := by
  simp only [classify, firstMatch_congr hm, hb]

theorem ofUnit_matches_mul {u : Nat} (hu : 1 ≤ u) (k : SyncCode) (d : Ticks) :
    (Config.ofUnit u).Matches k (d * u) ↔ Config.default.Matches k d := by
  rw [Config.Matches, lowOf_ofUnit, highOf_ofUnit, Nat.mul_lt_mul_right hu, Nat.mul_lt_mul_right hu]

/-- Settles O54: a duration and the bounds it is compared with scale by the same factor. -/
theorem classificationScalesWithTheUnit : Obligations.ClassificationScalesWithTheUnit := by
  intro u d hu
  refine classify_congr (fun k => ofUnit_matches_mul hu k d) ?_
  rw [beamCeiling_ofUnit, Nat.mul_lt_mul_right hu]

/-! ### The rounding (R10, R121) -/

/-- All that the rounding to a natural can answer: the nearer neighbour, or the even one of two equally near. -/
theorem nearestEven_cases (n d : Nat) :
    (2 * (n % d) < d ∧ nearestEven n d = n / d) ∨
    (d < 2 * (n % d) ∧ nearestEven n d = n / d + 1) ∨
    (2 * (n % d) = d ∧ nearestEven n d % 2 = 0 ∧ (nearestEven n d = n / d ∨ nearestEven n d = n / d + 1)) := by
  rw [nearestEven]
  split
  · exact .inl ⟨‹_›, rfl⟩
  · split
    · exact .inr (.inl ⟨‹_›, rfl⟩)
    · exact .inr (.inr ⟨by omega, by omega, by omega⟩)

/-- How far `n` is from a multiple of `d`: the remainder or its complement for the two neighbours of `n`, and at least
`d` for every other. -/
theorem natAbs_mul_sub_cases {d : Nat} (hd : 0 < d) (n a : Nat) :
    (a = n / d ∧ ((a * d : Nat) - n : Int).natAbs = n % d) ∨
    (a = n / d + 1 ∧ ((a * d : Nat) - n : Int).natAbs = d - n % d) ∨
    (a ≠ n / d ∧ a ≠ n / d + 1 ∧ d ≤ ((a * d : Nat) - n : Int).natAbs) := by
  have hn := Nat.div_add_mod' n d
  have hr := Nat.mod_lt n hd
  have hup : (n / d + 1) * d = n / d * d + d := Nat.succ_mul _ _
  rcases Nat.lt_trichotomy a (n / d) with hlt | rfl | hgt
  · have hstep : (a + 1) * d ≤ n / d * d := Nat.mul_le_mul_right d hlt
    rw [Nat.succ_mul] at hstep
    exact .inr (.inr ⟨by omega, by omega, by omega⟩)
  · exact .inl ⟨rfl, by omega⟩
  · rcases Nat.eq_or_lt_of_le (show n / d + 1 ≤ a from hgt) with rfl | hgt
    · exact .inr (.inl ⟨rfl, by omega⟩)
    · have hstep : (n / d + 1 + 1) * d ≤ a * d := Nat.mul_le_mul_right d hgt
      rw [Nat.succ_mul] at hstep
      exact .inr (.inr ⟨by omega, by omega, by omega⟩)

/-- The nearest natural is nearest to `n` among the multiples of `d`, and even where another is equally near. -/
theorem nearestEven_nearest {d : Nat} (hd : 0 < d) (n a : Nat) :
    ((nearestEven n d * d : Nat) - n : Int).natAbs ≤ ((a * d : Nat) - n : Int).natAbs ∧
    (((nearestEven n d * d : Nat) - n : Int).natAbs = ((a * d : Nat) - n : Int).natAbs → a ≠ nearestEven n d →
      nearestEven n d % 2 = 0) := by
  have hr := Nat.mod_lt n hd
  have hN := natAbs_mul_sub_cases hd n (nearestEven n d)
  have ha := natAbs_mul_sub_cases hd n a
  rcases nearestEven_cases n d with ⟨hlow, hq⟩ | ⟨hhigh, hq⟩ | ⟨htie, heven, hq⟩
  · exact ⟨by omega, by omega⟩
  · exact ⟨by omega, by omega⟩
  · exact ⟨by omega, fun _ _ => heven⟩

/-- The unit in the last place of the quotient `n / d`, in units of the format (`fltRound`). -/
def fltUlp (f : FltFormat) (n d : Nat) : Nat := 2 ^ (Nat.log2 (n / d) - f.fracBits)

theorem fltUlp_pos (f : FltFormat) (n d : Nat) : 0 < fltUlp f n d := Nat.two_pow_pos _

theorem fltRound_eq_nearestEven_mul_ulp (f : FltFormat) (n d : Nat) :
    fltRound f n d = nearestEven n (d * fltUlp f n d) * fltUlp f n d := rfl

/-- The quotient is below two to the significant bits, counted in units in the last place. -/
theorem div_lt_two_pow_mul_ulp (f : FltFormat) (n d : Nat) :
    n / d < 2 ^ (f.fracBits + 1) * fltUlp f n d := by
  rw [fltUlp, ← Nat.pow_add]
  exact lt_of_lt_of_le Nat.lt_log2_self (Nat.pow_le_pow_right (by decide) (by omega))

/-- At most two to the significant bits, times a power of two, is representable: the bound itself is one more binade's
least number. -/
theorem fltRepresentable_of_le {f : FltFormat} {a : Nat} (e : Nat) (h : a ≤ 2 ^ (f.fracBits + 1)) :
    FltRepresentable f (a * 2 ^ e) := by
  rcases Nat.eq_or_lt_of_le h with rfl | hlt
  · exact ⟨1, f.fracBits + 1 + e, Nat.one_lt_two_pow (by omega), by ring⟩
  · exact ⟨a, e, hlt, rfl⟩

/-- The rounded quotient needs no more significant bits than the format has. -/
theorem fltRound_representable (f : FltFormat) (n d : Nat) : FltRepresentable f (fltRound f n d) := by
  have hq : n / (d * fltUlp f n d) < 2 ^ (f.fracBits + 1) := by
    rw [← Nat.div_div_eq_div_mul]
    exact Nat.div_lt_of_lt_mul (Nat.mul_comm _ _ ▸ div_lt_two_pow_mul_ulp f n d)
  exact fltRepresentable_of_le _ (le_trans (nearestEven_le _ _) hq)

/-- A representable number that is no multiple of the unit in the last place lies in a lower binade: a multiple of the
unit, the binade's least number, separates it from the quotient. -/
theorem FltRepresentable.multiple_or_below {f : FltFormat} {m : Nat} (hm : FltRepresentable f m) (n d : Nat) :
    (∃ a, m = a * fltUlp f n d) ∨ (∃ a, m < a * fltUlp f n d ∧ a * fltUlp f n d ≤ n / d) := by
  obtain ⟨b, k, hb, rfl⟩ := hm
  rw [fltUlp]
  rcases Nat.lt_or_ge k (Nat.log2 (n / d) - f.fracBits) with hk | hk
  · refine .inr ⟨2 ^ f.fracBits, ?_, ?_⟩
    · calc b * 2 ^ k < 2 ^ (f.fracBits + 1) * 2 ^ k := Nat.mul_lt_mul_of_pos_right hb (Nat.two_pow_pos k)
        _ = 2 ^ f.fracBits * 2 ^ (k + 1) := by ring
        _ ≤ _ := Nat.mul_le_mul_left _ (Nat.pow_le_pow_right (by decide) hk)
    · have hne : n / d ≠ 0 := fun h => by simp [h] at hk
      rw [← Nat.pow_add, Nat.add_sub_cancel' (by omega)]
      exact Nat.log2_self_le hne
  · exact .inl ⟨b * 2 ^ (k - (Nat.log2 (n / d) - f.fracBits)),
      by rw [Nat.mul_assoc, ← Nat.pow_add, Nat.sub_add_cancel hk]⟩

/-- The rounded quotient is nearest among the multiples of the unit in the last place, ties to even. -/
theorem fltRound_nearest_multiple (f : FltFormat) {d : Nat} (hd : 0 < d) (n a : Nat) :
    ((fltRound f n d * d : Nat) - n : Int).natAbs ≤ ((a * fltUlp f n d * d : Nat) - n : Int).natAbs ∧
    (((fltRound f n d * d : Nat) - n : Int).natAbs = ((a * fltUlp f n d * d : Nat) - n : Int).natAbs →
      a * fltUlp f n d ≠ fltRound f n d → fltRound f n d / fltUlp f n d % 2 = 0) := by
  have hu := fltUlp_pos f n d
  obtain ⟨hle, heven⟩ := nearestEven_nearest (Nat.mul_pos hd hu) n a
  rw [fltRound_eq_nearestEven_mul_ulp, Nat.mul_div_cancel _ hu, Nat.mul_assoc, Nat.mul_assoc, Nat.mul_comm _ d]
  exact ⟨hle, fun he hne => heven he fun ha => hne (ha ▸ rfl)⟩

/-- Settles O55: among the multiples of the unit in the last place by `nearestEven_nearest`; any other representable
number is farther than the multiple that separates it from the quotient. -/
theorem roundingIsToNearestTiesToEven : Obligations.RoundingIsToNearestTiesToEven := by
  intro f n d hd
  refine ⟨fltRound_representable f n d, fun m hm => ?_⟩
  rcases hm.multiple_or_below n d with ⟨a, rfl⟩ | ⟨a, hma, han⟩
  · exact fltRound_nearest_multiple f hd n a
  · obtain ⟨hnear, -⟩ := fltRound_nearest_multiple f hd n a
    have hlt : m * d < a * fltUlp f n d * d := Nat.mul_lt_mul_of_pos_right hma hd
    have hle : a * fltUlp f n d * d ≤ n := (Nat.le_div_iff_mul_le hd).1 han
    exact ⟨by omega, by omega⟩

end Sys2Proof.Machine

/-! PROOFS. The statements of 10_state.md: what an operation that completes has done, which registers it can change and
who owns them (R20 to R35), the reset values (R37), and the invariant of the state. -/

namespace Sys2Proof.Machine

/-! ### What an operation that completes has done (R62, R102, R107) -/

/-- The row of a value of the sequencer (R68). -/
def phaseRow : Phase → Instr
  | .idle => .idle
  | .p1 => .p1Check
  | .p2 => .p2Seek
  | .p3 => .p3LoadStart
  | .p4 => .p4LoadEnd
  | .p5 => .p5Decode
  | .p6 => .p6Advance

/-- What a phase does; at IDLE there is none to run. -/
def runPhase : Phase → State → State
  | .idle => id
  | .p1 => phaseCheck
  | .p2 => phaseSeek
  | .p3 => phaseLoadStart
  | .p4 => phaseLoadEnd
  | .p5 => phaseDecode
  | .p6 => phaseAdvance

/-- The class whose arm a row of format SYNC3 or CLASS2 is (log 7). -/
def rowClass : Instr → State → Option PulseClass
  | .sync0, _ => some (.sync 0)
  | .sync1, _ => some (.sync 1)
  | .sync2, _ => some (.sync 2)
  | .sync3, _ => some (.sync 3)
  | .sync4, _ => some (.sync 4)
  | .sync5, _ => some (.sync 5)
  | .sync6, _ => some (.sync 6)
  | .sync7, _ => some (.sync 7)
  | .classNone, _ => some .unclassified
  | .classBeam, _ => some .beam
  | .classSync, s => some (.sync (latchedCode s))
  | _, _ => none

/-- What each operation of the consumer does when it completes (R100 to R113). -/
inductive Consumes : Instr → State → State → Prop
  | poll {s : State} (hs : s.cphase = .idle) : Consumes .poll s (wholeTick s)
  | beginTick {s : State} (hs : s.cphase = .idle) : Consumes .beginTick s (beginOp s)
  | stepTick {s : State} {p : Phase} (hs : s.cphase = p) (hp : p ≠ .idle) : Consumes .stepTick s (runPhase p s)
  | row {s : State} {p : Phase} (hp : p ≠ .idle) : Consumes (phaseRow p) s (runPhase p s)
  | arm {i : Instr} {s : State} {cls : PulseClass} (hi : rowClass i s = some cls) : Consumes i s (classArm cls s)

/-- What each operation does when it completes. -/
inductive Completes : Instr → State → State → Prop
  | reset {s : State} : Completes .reset s ({ State.reset with cfg := s.cfg }.setInput s.input)
  | setup {s : State} (hs : s.enabled = false) : Completes .setup s ((s.setEnabled true).setResult .nothing)
  | edgeR {s : State} {t : Ticks} : Completes (.edgeR t) s (takeEdgeInterrupt (latchRise t) s)
  | edgeF {s : State} {t : Ticks} : Completes (.edgeF t) s (takeEdgeInterrupt (latchFall t) s)
  | getX {s : State} (hs : s.cphase = .idle) : Completes .getX s (s.setResult (.float s.angleSweep))
  | getY {s : State} (hs : s.cphase = .idle) : Completes .getY s (s.setResult (.float s.angleCreep))
  | isUpd {s : State} : Completes .isUpd s (s.setResult (.bool s.updating))
  | consumer {i : Instr} {s t : State} (h : Consumes i s t) : Completes i s t

/-- STEP runs the phase that `cphase` names, and is refused at IDLE (R102). -/
theorem execStepTick_next {s t : State} (h : execStepTick s = .next t) :
    s.cphase ≠ .idle ∧ t = runPhase s.cphase s := by
  rw [execStepTick] at h
  cases hp : s.cphase <;> rw [hp] at h
  case idle => exact nomatch h
  all_goals exact ⟨nofun, (Host.Outcome.next.inj h).symm⟩

/-- SETUP completes only while it has not been performed (R130). -/
theorem execSetup_next {s t : State} (h : execSetup s = .next t) :
    s.enabled = false ∧ t = (s.setEnabled true).setResult .nothing := by
  rw [execSetup] at h
  split at h
  · exact nomatch h
  · exact ⟨Bool.eq_false_of_not_eq_true ‹_›, (Host.Outcome.next.inj h).symm⟩

/-- A row of format SYNC3 or CLASS2 is the arm of its class (log 7). -/
theorem exec_of_rowClass {i : Instr} {s : State} {cls : PulseClass} (hi : rowClass i s = some cls) :
    exec i s = .next (classArm cls s) := by
  cases i <;> simp only [rowClass, Option.some.injEq, reduceCtorEq] at hi <;> subst hi <;> rfl

theorem completes_of_rowClass {i : Instr} {s t : State} {cls : PulseClass} (hi : rowClass i s = some cls)
    (h : exec i s = .next t) : Completes i s t := by
  rw [exec_of_rowClass hi] at h
  cases h
  exact .consumer (.arm hi)

/-- All that an operation can do when it answers a next state: the one case split over the table that the rules of
this file derive from. -/
theorem completes_of_exec {i : Instr} {s t : State} (h : exec i s = .next t) : Completes i s t := by
  cases i with
  | reset => cases h; exact .reset
  | setup =>
    obtain ⟨hs, rfl⟩ := execSetup_next h
    exact .setup hs
  | edgeF x => cases h; exact .edgeF
  | edgeR x => cases h; exact .edgeR
  | getX =>
    obtain ⟨hs, rfl⟩ := whenIdle_next h
    exact .getX hs
  | getY =>
    obtain ⟨hs, rfl⟩ := whenIdle_next h
    exact .getY hs
  | isUpd => cases h; exact .isUpd
  | poll =>
    obtain ⟨hs, rfl⟩ := whenIdle_next h
    exact .consumer (.poll hs)
  | beginTick =>
    obtain ⟨hs, rfl⟩ := whenIdle_next h
    exact .consumer (.beginTick hs)
  | stepTick =>
    obtain ⟨hp, rfl⟩ := execStepTick_next h
    exact .consumer (.stepTick rfl hp)
  | reserved1010 | reserved1011 | reserved1100 | reserved1101 | reserved1110 | reserved1111 | idle => exact nomatch h
  | p1Check => cases h; exact .consumer (.row (p := .p1) nofun)
  | p2Seek => cases h; exact .consumer (.row (p := .p2) nofun)
  | p3LoadStart => cases h; exact .consumer (.row (p := .p3) nofun)
  | p4LoadEnd => cases h; exact .consumer (.row (p := .p4) nofun)
  | p5Decode => cases h; exact .consumer (.row (p := .p5) nofun)
  | p6Advance => cases h; exact .consumer (.row (p := .p6) nofun)
  | sync0 | sync1 | sync2 | sync3 | sync4 | sync5 | sync6 | sync7 => exact completes_of_rowClass rfl h
  | classNone | classBeam | classSync => exact completes_of_rowClass rfl h

/-! ### Who owns what (R35) -/

/-- The state the consumer reads and never writes (R35). -/
structure KeepsShared (s t : State) : Prop where
  cfg : t.cfg = s.cfg
  ring : t.ring = s.ring
  writeIndex : t.writeIndex = s.writeIndex
  enabled : t.enabled = s.enabled
  input : t.input = s.input

theorem KeepsShared.trans {s t u : State} (h : KeepsShared s t) (h' : KeepsShared t u) : KeepsShared s u :=
  ⟨h'.cfg.trans h.cfg, h'.ring.trans h.ring, h'.writeIndex.trans h.writeIndex, h'.enabled.trans h.enabled,
    h'.input.trans h.input⟩

theorem endTick_keepsShared (s : State) (b : Bool) : KeepsShared s (endTick s b) := ⟨rfl, rfl, rfl, rfl, rfl⟩

theorem beginOp_keepsShared (s : State) : KeepsShared s (beginOp s) := ⟨rfl, rfl, rfl, rfl, rfl⟩

theorem toPhase_keepsShared (s : State) (p : Phase) : KeepsShared s (toPhase s p) := ⟨rfl, rfl, rfl, rfl, rfl⟩

theorem setRet_keepsShared (s : State) (b : Bool) : KeepsShared s (s.setRet b) := ⟨rfl, rfl, rfl, rfl, rfl⟩

theorem classArm_keepsShared (cls : PulseClass) (s : State) : KeepsShared s (classArm cls s) := by
  obtain ⟨hcfg, hring, hwrite, -, -, hen, -, -, -, -, hinput⟩ := classArm_frame cls s
  exact ⟨hcfg, hring, hwrite, hen, hinput⟩

theorem phaseCheck_keepsShared (s : State) : KeepsShared s (phaseCheck s) := by
  rcases phaseCheck_cases s with ⟨-, e⟩ | ⟨-, e⟩ <;> rw [e] <;> exact ⟨rfl, rfl, rfl, rfl, rfl⟩

theorem phaseDecode_keepsShared (s : State) : KeepsShared s (phaseDecode s) := by
  rw [phaseDecode_eq]
  exact ((setRet_keepsShared s false).trans (classArm_keepsShared _ _)).trans (toPhase_keepsShared _ _)

theorem runPhase_keepsShared (p : Phase) (s : State) : KeepsShared s (runPhase p s) := by
  cases p <;> rw [runPhase]
  case p1 => exact phaseCheck_keepsShared s
  case p2 => rw [phaseSeek_eq]; exact ⟨rfl, rfl, rfl, rfl, rfl⟩
  case p3 => rw [phaseLoadStart_eq]; exact ⟨rfl, rfl, rfl, rfl, rfl⟩
  case p4 => rw [phaseLoadEnd_eq]; exact ⟨rfl, rfl, rfl, rfl, rfl⟩
  case p5 => exact phaseDecode_keepsShared s
  case p6 => rw [phaseAdvance_eq]; exact ⟨rfl, rfl, rfl, rfl, rfl⟩
  case idle => exact ⟨rfl, rfl, rfl, rfl, rfl⟩

/-- The state in which a whole tick that has found data decodes: the record is latched and `cphase` is P5 (R113). -/
def tickLatched (s : State) : State := phaseLoadEnd (phaseLoadStart (phaseSeek (toPhase (beginOp s) .p2)))

/-- Up to P4 a tick writes the index, the latches and the tick's own state, nothing else. -/
theorem tickLatched_eq (s : State) :
    ∃ r a b, tickLatched s = { s with
      readIndex := r, cStart := a, cEnd := b, updating := true, cphase := .p5, result := .nothing } :=
  ⟨_, _, _, by rw [tickLatched, beginOp_eq, toPhase_eq, phaseSeek_eq, phaseLoadStart_eq, phaseLoadEnd_eq]⟩

theorem tickLatched_keepsShared (s : State) : KeepsShared s (tickLatched s) := by
  obtain ⟨r, a, b, e⟩ := tickLatched_eq s
  rw [e]
  exact ⟨rfl, rfl, rfl, rfl, rfl⟩

/-- A whole tick ends at P1, or decodes one record and advances (R113). -/
theorem wholeTick_eq (s : State) :
    wholeTick s = endTick (beginOp s) false ∨ wholeTick s = phaseAdvance (phaseDecode (tickLatched s)) :=
  (wholeTick_cases s).imp And.right And.right

theorem wholeTick_keepsShared (s : State) : KeepsShared s (wholeTick s) := by
  rcases wholeTick_eq s with e | e <;> rw [e]
  · exact (beginOp_keepsShared s).trans (endTick_keepsShared _ _)
  · have h := (tickLatched_keepsShared s).trans (phaseDecode_keepsShared _)
    exact h.trans (runPhase_keepsShared .p6 _)

theorem Consumes.keepsShared {i : Instr} {s t : State} (h : Consumes i s t) : KeepsShared s t := by
  cases h with
  | poll => exact wholeTick_keepsShared s
  | beginTick => exact beginOp_keepsShared s
  | stepTick | row => exact runPhase_keepsShared _ s
  | arm => exact classArm_keepsShared _ s

theorem agentOf_of_rowClass {i : Instr} {s : State} {cls : PulseClass} (h : rowClass i s = some cls) :
    agentOf i = some .consumer := by
  cases i <;> simp only [rowClass, reduceCtorEq] at h <;> rfl

theorem agentOf_phaseRow (p : Phase) : agentOf (phaseRow p) = some .consumer := by
  cases p <;> rfl

theorem Consumes.agentOf_eq {i : Instr} {s t : State} (h : Consumes i s t) : agentOf i = some .consumer := by
  cases h with
  | poll | beginTick | stepTick => rfl
  | row => exact agentOf_phaseRow _
  | arm hi => exact agentOf_of_rowClass hi

/-- EDGE.R writes at most the ring, and hands back nothing (R81, R83). -/
theorem takeEdgeInterrupt_latchRise (x : Ticks) (s : State) :
    ∃ m, takeEdgeInterrupt (latchRise x) s = { s with ring := m, result := .nothing } := by
  by_cases he : s.enabled = true
  · exact ⟨_, takeEdgeInterrupt_enabled _ he⟩
  · exact ⟨s.ring, takeEdgeInterrupt_disabled _ (Bool.eq_false_of_not_eq_true he)⟩

/-- EDGE.F writes at most the ring and `writeIndex`, and hands back nothing (R82, R83). -/
theorem takeEdgeInterrupt_latchFall (x : Ticks) (s : State) :
    ∃ m w, takeEdgeInterrupt (latchFall x) s = { s with ring := m, writeIndex := w, result := .nothing } := by
  by_cases he : s.enabled = true
  · exact ⟨_, _, takeEdgeInterrupt_enabled _ he⟩
  · exact ⟨s.ring, s.writeIndex, takeEdgeInterrupt_disabled _ (Bool.eq_false_of_not_eq_true he)⟩

/-- Settles O42: the consumer by `Consumes.keepsShared`, every other operation by the one update it is. -/
theorem eachAgentWritesOnlyItsOwnState : Obligations.EachAgentWritesOnlyItsOwnState := by
  intro i s t h
  cases completes_of_exec h with
  | reset => exact ⟨rfl, rfl, nofun, nofun, nofun⟩
  | setup | getX | getY | isUpd => exact ⟨rfl, rfl, nofun, nofun, fun _ => rfl⟩
  | edgeR =>
    obtain ⟨m, e⟩ := takeEdgeInterrupt_latchRise _ s
    rw [e]
    exact ⟨rfl, rfl, fun _ => rfl, nofun, nofun⟩
  | edgeF =>
    obtain ⟨m, w, e⟩ := takeEdgeInterrupt_latchFall _ s
    rw [e]
    exact ⟨rfl, rfl, fun _ => rfl, nofun, nofun⟩
  | consumer hc =>
    obtain ⟨hcfg, hring, hwrite, hen, hinput⟩ := hc.keepsShared
    rw [hc.agentOf_eq]
    exact ⟨hcfg, hinput, nofun, fun _ => ⟨hring, hwrite, hen⟩, nofun⟩

/-! ### The sequencer and `updating` (R29, R30) -/

/-- A whole tick ends with no tick in progress. -/
theorem wholeTick_ended (s : State) : (wholeTick s).updating = false ∧ (wholeTick s).cphase = .idle := by
  rcases wholeTick_eq s with e | e <;> rw [e] <;> exact ⟨rfl, rfl⟩

/-- A phase leaves the tick in progress, at a phase, or ends it. -/
theorem runPhase_cases {p : Phase} (hp : p ≠ .idle) (s : State) :
    ((runPhase p s).updating = s.updating ∧ (runPhase p s).cphase ≠ .idle) ∨
    ((runPhase p s).updating = false ∧ (runPhase p s).cphase = .idle) := by
  cases p with
  | idle => exact absurd rfl hp
  | p1 =>
    rcases phaseCheck_cases s with ⟨-, e⟩ | ⟨-, e⟩ <;> rw [runPhase, e]
    · exact .inr ⟨rfl, rfl⟩
    · exact .inl ⟨rfl, nofun⟩
  | p5 =>
    obtain ⟨-, -, -, -, hupdating, -⟩ := classArm_frame (classify s.cfg (latchedDuration s)) (s.setRet false)
    rw [runPhase, phaseDecode_eq]
    exact .inl ⟨hupdating, nofun⟩
  | p2 | p3 | p4 => exact .inl ⟨rfl, nofun⟩
  | p6 => exact .inr ⟨rfl, rfl⟩

theorem format_phaseRow (p : Phase) : (phaseRow p).format = .cphase := by
  cases p <;> rfl

theorem format_of_rowClass {i : Instr} {s : State} {cls : PulseClass} (h : rowClass i s = some cls) :
    i.format ≠ .ev := by
  cases i <;> simp only [rowClass, reduceCtorEq] at h <;> exact nofun

/-- Settles O47: BEGIN and POLL write both registers; STEP runs a phase, during which `updating` is 1 already. -/
theorem updatingTracksTheSequencer : Obligations.UpdatingTracksTheSequencer := by
  intro i s t hev hs h
  cases completes_of_exec h with
  | reset => exact ⟨nofun, fun hne => absurd rfl hne⟩
  | setup | getX | getY | isUpd => exact hs
  | edgeR =>
    obtain ⟨m, e⟩ := takeEdgeInterrupt_latchRise _ s
    rwa [e]
  | edgeF =>
    obtain ⟨m, w, e⟩ := takeEdgeInterrupt_latchFall _ s
    rwa [e]
  | consumer hc =>
    cases hc with
    | poll =>
      obtain ⟨hupdating, hphase⟩ := wholeTick_ended s
      rw [hupdating, hphase]
      exact ⟨nofun, fun hne => absurd rfl hne⟩
    | beginTick => exact ⟨fun _ => nofun, fun _ => rfl⟩
    | stepTick hphase hp =>
      subst hphase
      rcases runPhase_cases hp s with ⟨hu, hne⟩ | ⟨hu, hidle⟩
      · exact ⟨fun _ => hne, fun _ => hu.trans (hs.2 hp)⟩
      · exact ⟨fun h => by simp [hu] at h, fun h => absurd hidle h⟩
    | row => rw [format_phaseRow] at hev; exact nomatch hev
    | arm hi => exact absurd hev (format_of_rowClass hi)

/-! ### The converter's registers: the angles, the axis and the origin (R26 to R28) -/

/-- The converter's registers have kept their values. -/
structure KeepsConverter (s t : State) : Prop where
  angle : t.angle = s.angle
  axis : t.activeAxis = s.activeAxis
  origin : t.syncPulseStart = s.syncPulseStart

theorem KeepsConverter.trans {s t u : State} (h : KeepsConverter s t) (h' : KeepsConverter t u) :
    KeepsConverter s u :=
  ⟨h'.angle.trans h.angle, h'.axis.trans h.axis, h'.origin.trans h.origin⟩

/-- The two ways a decoded class `cls` changes the converter's registers: a sync pulse without the skip bit sets the
origin and the axis (R108), a beam stores an angle of the active axis and reports it (R110). -/
inductive Decodes (cls : PulseClass) (s t : State) : Prop
  | sync (k : SyncCode) (hcls : cls = .sync k) (hskip : skipBit k = false) (hangle : t.angle = s.angle)
      (hstart : t.syncPulseStart = t.cStart) (haxis : t.activeAxis = Axis.ofBit (axisBit k))
  | beam (hcls : cls = .beam) (hother : ∀ a, a ≠ s.activeAxis → t.angle a = s.angle a) (hret : t.cRet = true)
      (haxis : t.activeAxis = s.activeAxis) (horigin : t.syncPulseStart = s.syncPulseStart)

/-- An arm keeps the converter's registers or changes them in one of the two ways of its class. -/
theorem classArm_decodes (cls : PulseClass) (s : State) :
    KeepsConverter s (classArm cls s) ∨ Decodes cls s (classArm cls s) := by
  rcases classArm_cases cls s with e | ⟨k, hcls, hskip, e⟩ | ⟨hcls, -, -, e⟩ <;> rw [e]
  · exact .inl ⟨rfl, rfl, rfl⟩
  · exact .inr (.sync k hcls hskip rfl rfl rfl)
  · exact .inr (.beam hcls (fun _ ha => State.angle_setAngle_other s _ ha) rfl rfl rfl)

/-- The change does not depend on the registers outside the converter, but for the latches of the start and the
result. -/
theorem Decodes.congr {cls : PulseClass} {s₀ s t t₀ : State} (h : Decodes cls s t) (hs : KeepsConverter s₀ s)
    (ht : KeepsConverter t t₀) (hstart : t₀.cStart = t.cStart) (hret : t₀.cRet = t.cRet) : Decodes cls s₀ t₀ := by
  obtain ⟨hsa, hsx, hso⟩ := hs
  obtain ⟨hta, htx, hto⟩ := ht
  cases h with
  | sync k hcls hskip hangle horigin haxis =>
    exact .sync k hcls hskip (by rw [hta, hangle, hsa]) (by rw [hto, horigin, hstart]) (by rw [htx, haxis])
  | beam hcls hother hr haxis horigin =>
    exact .beam hcls (fun a ha => by rw [hta, hother a (hsx ▸ ha), hsa]) (by rw [hret, hr])
      (by rw [htx, haxis, hsx]) (by rw [hto, horigin, hso])

/-- The class of the record in the latches (R107). -/
def latchedClass (s : State) : PulseClass := classify s.cfg (latchedDuration s)

theorem latchedClass_congr {s t : State} (hcfg : t.cfg = s.cfg) (hstart : t.cStart = s.cStart)
    (hend : t.cEnd = s.cEnd) : latchedClass t = latchedClass s := by
  rw [latchedClass, latchedClass, latchedDuration, latchedDuration, hcfg, hstart, hend]

theorem classArm_latchedClass (cls : PulseClass) (s : State) : latchedClass (classArm cls s) = latchedClass s := by
  obtain ⟨hcfg, -, -, -, -, -, -, hstart, hend, -⟩ := classArm_frame cls s
  exact latchedClass_congr hcfg hstart hend

theorem toPhase_latchedClass (s : State) (p : Phase) : latchedClass (toPhase s p) = latchedClass s := rfl

theorem phaseDecode_latchedClass (s : State) : latchedClass (phaseDecode s) = latchedClass s := by
  rw [phaseDecode_eq, toPhase_latchedClass, classArm_latchedClass]
  rfl

theorem toPhase_keepsConverter (s : State) (p : Phase) : KeepsConverter s (toPhase s p) := ⟨rfl, rfl, rfl⟩

theorem setRet_keepsConverter (s : State) (b : Bool) : KeepsConverter s (s.setRet b) := ⟨rfl, rfl, rfl⟩

theorem beginOp_keepsConverter (s : State) : KeepsConverter s (beginOp s) := ⟨rfl, rfl, rfl⟩

theorem endTick_keepsConverter (s : State) (b : Bool) : KeepsConverter s (endTick s b) := ⟨rfl, rfl, rfl⟩

theorem phaseAdvance_keepsConverter (s : State) : KeepsConverter s (phaseAdvance s) := by
  rw [phaseAdvance_eq]
  exact ⟨rfl, rfl, rfl⟩

theorem Decodes.toPhase {cls : PulseClass} {s₀ s t : State} (h : Decodes cls s t) (hs : KeepsConverter s₀ s)
    (p : Phase) : Decodes cls s₀ (toPhase t p) :=
  h.congr hs (toPhase_keepsConverter t p) rfl rfl

/-- Phase P6 leaves what P5 has done to the converter's registers, and the latches that say so. -/
theorem Decodes.phaseAdvance {s₀ s t : State} (h : Decodes (latchedClass t) s t) (hs : KeepsConverter s₀ s) :
    Decodes (latchedClass (phaseAdvance t)) s₀ (phaseAdvance t) := by
  rw [phaseAdvance_eq]
  exact h.congr hs ⟨rfl, rfl, rfl⟩ rfl rfl

/-- Phase P5 is the arm of the latched class. -/
theorem phaseDecode_decodes (s : State) :
    KeepsConverter s (phaseDecode s) ∨ Decodes (latchedClass (phaseDecode s)) s (phaseDecode s) := by
  have hbefore := setRet_keepsConverter s false
  rw [phaseDecode_latchedClass, phaseDecode_eq]
  exact (classArm_decodes (latchedClass s) (s.setRet false)).imp
    (fun h => (hbefore.trans h).trans (toPhase_keepsConverter _ _)) (fun h => h.toPhase hbefore _)

theorem phaseCheck_keepsConverter (s : State) : KeepsConverter s (phaseCheck s) := by
  rcases phaseCheck_cases s with ⟨-, e⟩ | ⟨-, e⟩ <;> rw [e] <;> exact ⟨rfl, rfl, rfl⟩

/-- Of the phases, P5 alone changes the converter's registers. -/
theorem runPhase_keepsConverter {p : Phase} (hp : p ≠ .p5) (s : State) : KeepsConverter s (runPhase p s) := by
  cases p <;> rw [runPhase]
  case p1 => exact phaseCheck_keepsConverter s
  case p2 => rw [phaseSeek_eq]; exact ⟨rfl, rfl, rfl⟩
  case p3 => rw [phaseLoadStart_eq]; exact ⟨rfl, rfl, rfl⟩
  case p4 => rw [phaseLoadEnd_eq]; exact ⟨rfl, rfl, rfl⟩
  case p5 => exact absurd rfl hp
  case p6 => exact phaseAdvance_keepsConverter s
  case idle => exact ⟨rfl, rfl, rfl⟩

theorem runPhase_decodes (p : Phase) (s : State) :
    KeepsConverter s (runPhase p s) ∨
    (p = .p5 ∧ Decodes (latchedClass (runPhase p s)) s (runPhase p s)) := by
  by_cases hp : p = .p5
  · subst hp
    exact (phaseDecode_decodes s).imp_right (And.intro rfl)
  · exact .inl (runPhase_keepsConverter hp s)

theorem tickLatched_keepsConverter (s : State) : KeepsConverter s (tickLatched s) := by
  obtain ⟨r, a, b, e⟩ := tickLatched_eq s
  rw [e]
  exact ⟨rfl, rfl, rfl⟩

/-- A whole tick changes the converter's registers by its phase P5 only. -/
theorem wholeTick_decodes (s : State) :
    KeepsConverter s (wholeTick s) ∨ Decodes (latchedClass (wholeTick s)) s (wholeTick s) := by
  have hbefore := tickLatched_keepsConverter s
  rcases wholeTick_eq s with e | e <;> rw [e]
  · exact .inl ((beginOp_keepsConverter s).trans (endTick_keepsConverter _ _))
  · rcases phaseDecode_decodes (tickLatched s) with h | h
    · exact .inl ((hbefore.trans h).trans (phaseAdvance_keepsConverter _))
    · exact .inr (h.phaseAdvance hbefore)

/-- All that an operation can do to the converter's registers: RESET's values, nothing, or the decoding of the latched
record or of a row's class. -/
theorem Completes.decodes {i : Instr} {s t : State} (h : Completes i s t) :
    i = .reset ∨ KeepsConverter s t ∨
    (i ∈ [.poll, .stepTick, .p5Decode] ∧ Decodes (latchedClass t) s t) ∨
    (∃ cls, rowClass i s = some cls ∧ latchedClass t = latchedClass s ∧ Decodes cls s t) := by
  cases h with
  | reset => exact .inl rfl
  | setup | getX | getY | isUpd => exact .inr (.inl ⟨rfl, rfl, rfl⟩)
  | edgeR =>
    obtain ⟨m, e⟩ := takeEdgeInterrupt_latchRise _ s
    rw [e]
    exact .inr (.inl ⟨rfl, rfl, rfl⟩)
  | edgeF =>
    obtain ⟨m, w, e⟩ := takeEdgeInterrupt_latchFall _ s
    rw [e]
    exact .inr (.inl ⟨rfl, rfl, rfl⟩)
  | consumer hc =>
    refine .inr ?_
    cases hc with
    | poll => exact (wholeTick_decodes s).imp_right fun h => .inl ⟨by decide, h⟩
    | beginTick => exact .inl (beginOp_keepsConverter s)
    | stepTick => exact (runPhase_decodes _ s).imp_right fun ⟨_, h⟩ => .inl ⟨by decide, h⟩
    | row =>
      refine (runPhase_decodes _ s).imp_right fun ⟨hp, h⟩ => .inl ⟨?_, h⟩
      rw [hp]
      decide
    | arm hi =>
      exact (classArm_decodes _ s).imp_right fun h => .inr ⟨_, hi, classArm_latchedClass _ s, h⟩

theorem eq_classBeam_of_rowClass {i : Instr} {s : State} (h : rowClass i s = some .beam) : i = .classBeam := by
  cases i <;> simp [rowClass] at h ⊢

/-- A beam's change of an angle is that of the active axis. -/
theorem Decodes.of_angle_ne {cls : PulseClass} {s t : State} {a : Axis} (h : Decodes cls s t)
    (ha : t.angle a ≠ s.angle a) :
    cls = .beam ∧ a = s.activeAxis ∧ t.cRet = true ∧ t.activeAxis = s.activeAxis ∧
      t.syncPulseStart = s.syncPulseStart := by
  cases h with
  | sync k _ _ hangle => exact absurd (congrFun hangle a) ha
  | beam hcls hother hret haxis horigin =>
    exact ⟨hcls, by_contra fun hne => ha (hother a hne), hret, haxis, horigin⟩

/-- Settles O44: of the changes of `Completes.decodes`, only the store of a beam writes an angle. -/
theorem anglesChangeOnlyByABeamStoreOrReset : Obligations.AnglesChangeOnlyByABeamStoreOrReset := by
  intro i s t a h ha
  rcases (completes_of_exec h).decodes with rfl | hkeeps | ⟨hi, hd⟩ | ⟨cls, hi, -, hd⟩
  · exact .inl rfl
  · exact absurd (congrFun hkeeps.angle a) ha
  · obtain ⟨-, hstore⟩ := hd.of_angle_ne ha
    exact .inr ⟨List.mem_append_left [Instr.classBeam] hi, hstore⟩
  · obtain ⟨rfl, hstore⟩ := hd.of_angle_ne ha
    exact .inr ⟨by simp [eq_classBeam_of_rowClass hi], hstore⟩

/-- A change of the origin or the axis is that of a sync pulse without the skip bit. -/
theorem Decodes.of_origin_ne {cls : PulseClass} {s t : State} (h : Decodes cls s t)
    (hne : t.syncPulseStart ≠ s.syncPulseStart ∨ t.activeAxis ≠ s.activeAxis) :
    ∃ k, cls = .sync k ∧ skipBit k = false ∧ t.angle = s.angle ∧ t.syncPulseStart = t.cStart ∧
      t.activeAxis = Axis.ofBit (axisBit k) := by
  cases h with
  | sync k hcls hskip hangle hstart haxis => exact ⟨k, hcls, hskip, hangle, hstart, haxis⟩
  | beam _ _ _ haxis horigin => exact absurd hne (by simp [haxis, horigin])

/-- The rows that are the arm of a sync code: the code's own row, and CLASS.SYNC. -/
theorem sync_row_cases {i : Instr} {s : State} {k : SyncCode} (h : rowClass i s = some (.sync k))
    (hskip : skipBit k = false) :
    (i ∈ [.sync0, .sync2] ∧ Axis.ofBit (axisBit k) = .sweep) ∨
    (i ∈ [.sync1, .sync3] ∧ Axis.ofBit (axisBit k) = .creep) ∨ (i = .classSync ∧ k = latchedCode s) := by
  cases i <;> simp only [rowClass, reduceCtorEq, Option.some.injEq, PulseClass.sync.injEq] at h <;> subst h
  case sync0 | sync2 => exact .inl ⟨by decide, rfl⟩
  case sync1 | sync3 => exact .inr (.inl ⟨by decide, rfl⟩)
  case classSync => exact .inr (.inr ⟨rfl, rfl⟩)
  case sync4 | sync5 | sync6 | sync7 => exact absurd hskip (by decide)

/-- The code beside the latched class (R66). -/
theorem latchedCode_cases (s : State) :
    latchedClass s = .sync (latchedCode s) ∨ ((∀ k, latchedClass s ≠ .sync k) ∧ latchedCode s = 0) := by
  rw [latchedCode, latchedClass]
  cases classify s.cfg (latchedDuration s) with
  | sync k => exact .inl rfl
  | beam | unclassified => exact .inr ⟨nofun, rfl⟩

/-- Settles O45: of the changes of `Completes.decodes`, only a sync pulse without the skip bit writes the origin and
the axis; the row it came by says which code. -/
theorem originAndAxisChangeOnlyBySyncOrReset : Obligations.OriginAndAxisChangeOnlyBySyncOrReset := by
  intro i s t h hne
  rcases (completes_of_exec h).decodes with rfl | ⟨-, haxis, horigin⟩ | ⟨hi, hd⟩ | ⟨cls, hi, hlatched, hd⟩
  · exact .inl rfl
  · exact absurd hne (by simp [haxis, horigin])
  · obtain ⟨k, hcls, hskip, hangle, hstart, haxis⟩ := hd.of_origin_ne hne
    rw [ofBit_axisBit] at haxis
    exact .inr ⟨hstart, congrFun hangle, .inl ⟨hi, k, hcls, hskip, haxis⟩⟩
  · obtain ⟨k, rfl, hskip, hangle, hstart, haxis⟩ := hd.of_origin_ne hne
    refine .inr ⟨hstart, congrFun hangle, .inr ?_⟩
    rcases sync_row_cases hi hskip with ⟨hrow, hk⟩ | ⟨hrow, hk⟩ | ⟨rfl, rfl⟩
    · exact .inl ⟨hrow, haxis.trans hk⟩
    · exact .inr (.inl ⟨hrow, haxis.trans hk⟩)
    · refine .inr (.inr ⟨rfl, ?_⟩)
      change (∀ k, latchedClass t = .sync k → _) ∧ ((∀ k, latchedClass t ≠ .sync k) → _)
      rw [hlatched]
      rcases latchedCode_cases s with hsync | ⟨hnone, hzero⟩
      · refine ⟨fun k hk => ?_, fun hnone => absurd hsync (hnone _)⟩
        obtain rfl := PulseClass.sync.inj (hsync.symm.trans hk)
        exact ⟨hskip, haxis.trans (ofBit_axisBit _)⟩
      · exact ⟨fun k hk => absurd hk (hnone k), fun _ => by rw [haxis, hzero]; rfl⟩

/-! ### Which operations change which register -/

/-- The operations that can set the origin and the axis. -/
def originRows : List Instr := [.poll, .stepTick, .p5Decode, .sync0, .sync1, .sync2, .sync3, .classSync]

theorem mem_originRows {i : Instr} {s : State} {k : SyncCode} (hi : rowClass i s = some (.sync k))
    (hskip : skipBit k = false) : i ∈ originRows := by
  rcases sync_row_cases hi hskip with ⟨h, -⟩ | ⟨h, -⟩ | ⟨rfl, -⟩
  · exact (by decide : [Instr.sync0, .sync2] ⊆ originRows) h
  · exact (by decide : [Instr.sync1, .sync3] ⊆ originRows) h
  · decide

/-- Settles O43: by `Consumes.keepsShared` for the shared registers, and for the others by the operation's one update,
the phase's, or the arm's. -/
theorem registersChangeOnlyByTheirOperations : Obligations.RegistersChangeOnlyByTheirOperations := by
  intro i s t h hne
  cases completes_of_exec h with
  | reset => exact absurd rfl hne
  | setup | getX | getY | isUpd => simp [State.angle]
  | edgeR =>
    obtain ⟨m, e⟩ := takeEdgeInterrupt_latchRise _ s
    rw [e]
    simp [isEdge, State.angle]
  | edgeF =>
    obtain ⟨m, w, e⟩ := takeEdgeInterrupt_latchFall _ s
    rw [e]
    simp [isEdge, State.angle]
  | consumer hc =>
    obtain ⟨-, hring, hwrite, hen, -⟩ := hc.keepsShared
    simp only [hring, hwrite, hen, ne_eq, not_true_eq_false, false_implies, true_and]
    cases hc with
    | poll hs => simp [hs, wholeTick_ended]
    | beginTick => simp [beginOp_eq, State.angle]
    | stepTick => simp
    | @row _ p hp =>
      cases p <;> rw [phaseRow, runPhase]
      case idle => exact absurd rfl hp
      case p1 => rcases phaseCheck_cases s with ⟨-, e⟩ | ⟨-, e⟩ <;> simp [e, endTick_eq, toPhase_eq, State.angle]
      case p2 => simp [phaseSeek_eq, State.angle]
      case p3 => simp [phaseLoadStart_eq, State.angle]
      case p4 => simp [phaseLoadEnd_eq, State.angle]
      case p5 =>
        obtain ⟨-, -, -, hread, hupdating, -, -, hstart, hend, -⟩ :=
          classArm_frame (classify s.cfg (latchedDuration s)) (s.setRet false)
        simp [phaseDecode_eq, toPhase_eq, hread, hupdating, hstart, hend]
      case p6 => simp [phaseAdvance_eq, State.angle]
    | @arm _ _ cls hi =>
      rcases classArm_cases cls s with e | ⟨k, rfl, hskip, e⟩ | ⟨rfl, -, -, e⟩ <;> rw [e]
      · simp
      · have hangle : (s.setOrigin s.cStart (Axis.ofBit (axisBit k))).angle = s.angle := rfl
        have hmem := mem_originRows hi hskip
        rw [originRows] at hmem
        simp [hangle, hmem, -List.mem_cons]
      · simp [eq_classBeam_of_rowClass hi]

/-! ### The angle of a position in the window is a pattern of FLT (R28, R121) -/

/-- Rounding to a nearest number is monotone: numbers that cross would both lie halfway, and so be one number. -/
theorem fltRound_mono (f : FltFormat) {n m d : Nat} (hd : 0 < d) (h : n ≤ m) : fltRound f n d ≤ fltRound f m d := by
  by_contra hlt
  obtain ⟨hn, -⟩ := (roundingIsToNearestTiesToEven f n d hd).2 _ (fltRound_representable f m d)
  obtain ⟨hm, -⟩ := (roundingIsToNearestTiesToEven f m d hd).2 _ (fltRound_representable f n d)
  have hmul : fltRound f m d * d < fltRound f n d * d := Nat.mul_lt_mul_of_pos_right (not_le.1 hlt) hd
  have hnm : n = m := by omega
  exact hlt (hnm ▸ le_rfl)

/-- A representable number is its own nearest. -/
theorem fltRound_of_representable {f : FltFormat} {q d : Nat} (hq : FltRepresentable f q) (hd : 0 < d) :
    fltRound f (q * d) d = q := by
  obtain ⟨h, -⟩ := (roundingIsToNearestTiesToEven f (q * d) d hd).2 q hq
  exact Nat.eq_of_mul_eq_mul_right hd (by omega)

theorem fltOne_pos (f : FltFormat) : 0 < fltOne f := Nat.two_pow_pos _

theorem fltOne_representable (f : FltFormat) : FltRepresentable f (fltOne f) :=
  ⟨1, fltScale f, Nat.one_lt_two_pow (by omega), (Nat.one_mul _).symm⟩

theorem fltOfNat_of_representable {f : FltFormat} {n : Nat} (h : FltRepresentable f (n * fltOne f)) :
    fltOfNat f n = n * fltOne f := by
  simpa [fltOfNat] using fltRound_of_representable h Nat.one_pos

/-- 15 needs four significant bits, which every format of a well-formed configuration has (log 9). -/
theorem fltRepresentable_fifteen_mul {f : FltFormat} (hf : f.WF) (j : Nat) :
    FltRepresentable f (15 * 2 ^ j * fltOne f) := by
  obtain ⟨-, hfrac⟩ := hf
  have h16 : 2 ^ 4 ≤ 2 ^ (f.fracBits + 1) := Nat.pow_le_pow_right (by decide) (by omega)
  exact ⟨15, j + fltScale f, by omega, by rw [fltOne, Nat.pow_add, Nat.mul_assoc]⟩

theorem fltOfNat_angleOffset {f : FltFormat} (hf : f.WF) : fltOfNat f angleOffset = 60 * fltOne f :=
  fltOfNat_of_representable (fltRepresentable_fifteen_mul hf 2)

theorem fltOfNat_angleRange {f : FltFormat} (hf : f.WF) : fltOfNat f angleRange = 120 * fltOne f :=
  fltOfNat_of_representable (fltRepresentable_fifteen_mul hf 3)

theorem fltOfNat_mono (f : FltFormat) {n m : Nat} (h : n ≤ m) : fltOfNat f n ≤ fltOfNat f m :=
  fltRound_mono f Nat.one_pos (Nat.mul_le_mul_right _ h)

theorem fltOfNat_pos (f : FltFormat) {n : Nat} (h : 1 ≤ n) : 0 < fltOfNat f n := by
  have hone : fltOfNat f 1 = fltOne f := by
    simpa using fltOfNat_of_representable (n := 1) (by simpa using fltOne_representable f)
  exact lt_of_lt_of_le (fltOne_pos f) (hone ▸ fltOfNat_mono f h)

/-- The quotient of a float by one no smaller is at most 1. -/
theorem fltDiv_le_one (f : FltFormat) {a s : Nat} (hs : 0 < s) (h : a ≤ s) : fltDiv f a s ≤ fltOne f := by
  calc fltDiv f a s ≤ fltRound f (fltOne f * s) s :=
        fltRound_mono f hs (by rw [Nat.mul_comm]; exact Nat.mul_le_mul_left _ h)
    _ = fltOne f := fltRound_of_representable (fltOne_representable f) hs

/-- The product of a float by one of at most 1 is no larger than the float. -/
theorem fltMul_le {f : FltFormat} {q b : Nat} (hb : FltRepresentable f b) (hq : q ≤ fltOne f) : fltMul f q b ≤ b := by
  calc fltMul f q b ≤ fltRound f (b * fltOne f) (fltOne f) :=
        fltRound_mono f (fltOne_pos f) (by rw [Nat.mul_comm]; exact Nat.mul_le_mul_left _ hq)
    _ = b := fltRound_of_representable hb (fltOne_pos f)

/-- Up to 60 the exponent field stays below its all-ones value, so the pattern has no bit in the sign's place. -/
theorem fltEncode_lt {f : FltFormat} (hf : f.WF) {m : Nat} (hm : m ≤ 60 * fltOne f) :
    fltEncode f m < 2 ^ (f.expBits + f.fracBits) := by
  obtain ⟨hexp, -⟩ := hf
  have hhalf : 2 ^ f.expBits = 2 * 2 ^ (f.expBits - 1) := (mul_pow_sub_one (by omega) 2).symm
  have h8 : 2 ^ 3 ≤ 2 ^ (f.expBits - 1) := Nat.pow_le_pow_right (by decide) (by omega)
  have hlog : Nat.log2 m < fltScale f + 6 := by
    rcases Nat.eq_zero_or_pos m with rfl | hpos
    · simp
    · rw [Nat.log2_lt hpos.ne', Nat.pow_add]
      exact lt_of_le_of_lt (Nat.mul_comm _ _ ▸ hm) (Nat.mul_lt_mul_of_pos_left (by decide) (fltOne_pos f))
  have hdiv : m / 2 ^ (Nat.log2 m - f.fracBits) < 2 * 2 ^ f.fracBits := by
    refine Nat.div_lt_of_lt_mul ?_
    simpa [fltUlp, Nat.pow_succ', Nat.mul_comm] using div_lt_two_pow_mul_ulp f m 1
  have he : Nat.log2 m - f.fracBits + 2 ≤ 2 ^ f.expBits := by
    rw [fltScale] at hlog
    omega
  calc fltEncode f m < (Nat.log2 m - f.fracBits + 2) * 2 ^ f.fracBits := by
        rw [fltEncode, Nat.add_mul]; exact Nat.add_lt_add_left hdiv _
    _ ≤ 2 ^ (f.expBits + f.fracBits) := by rw [Nat.pow_add]; exact Nat.mul_le_mul_right _ he

/-- A magnitude that leaves the sign's place free is a pattern of the format, with either sign. -/
theorem fltSign_add_fits {f : FltFormat} {v : Nat} (neg : Bool) (hv : v < 2 ^ (f.expBits + f.fracBits)) :
    FltFormat.Fits f (fltSign f neg + v) := by
  have hsign : fltSign f neg ≤ 2 ^ (f.expBits + f.fracBits) := by cases neg <;> simp [fltSign]
  calc fltSign f neg + v < 2 ^ (f.expBits + f.fracBits) + 2 ^ (f.expBits + f.fracBits) :=
        Nat.add_lt_add_of_le_of_lt hsign hv
    _ = 2 ^ (1 + f.expBits + f.fracBits) := by ring

theorem FltFormat.fits_of_lt {f : FltFormat} {v : Nat} (hv : v < 2 ^ (f.expBits + f.fracBits)) :
    FltFormat.Fits f v := by
  simpa [fltSign] using fltSign_add_fits false hv

/-- A difference of at most 60 either way is encoded within the format. -/
theorem fltSub_fits {f : FltFormat} (hf : f.WF) {a b : Nat} (hab : a ≤ b + 60 * fltOne f)
    (hba : b ≤ a + 60 * fltOne f) : FltFormat.Fits f (fltSub f a b) := by
  have hround {n : Nat} (hn : n ≤ 60 * fltOne f) : fltEncode f (fltRound f n 1) < 2 ^ (f.expBits + f.fracBits) := by
    refine fltEncode_lt hf ?_
    calc fltRound f n 1 ≤ fltRound f (60 * fltOne f * 1) 1 := fltRound_mono f Nat.one_pos (by omega)
      _ = 60 * fltOne f := fltRound_of_representable (fltRepresentable_fifteen_mul hf 2) Nat.one_pos
  rw [fltSub]
  split
  · exact fltSign_add_fits true (hround (by omega))
  · exact FltFormat.fits_of_lt (hround (by omega))

theorem freeAngle_fits {c : Config} (hf : c.flt.WF) (k : Nat) : FltFormat.Fits c.flt (freeAngle c k) := by
  have hsixty := fltEncode_lt hf (fltOfNat_angleOffset hf).le
  rw [freeAngle]
  split
  · exact fltSub_fits hf (by omega) (by rw [fltOfNat_angleOffset hf]; omega)
  · split
    · exact FltFormat.fits_of_lt hsixty
    · exact fltSign_add_fits _ (lt_of_lt_of_le (Nat.mod_lt _ (Nat.succ_pos _)) hsixty)

/-- Every position in the window has an angle of between -60 and 60, and so a pattern of the format. -/
theorem angleOf_fits {c : Config} (hf : c.flt.WF) (hspan : 1 ≤ c.span) {k : Nat} (hk : k ≤ c.span) :
    FltFormat.Fits c.flt (angleOf c k) := by
  rw [angleOf]
  split
  · exact freeAngle_fits hf k
  · have hq := fltDiv_le_one c.flt (fltOfNat_pos c.flt hspan) (fltOfNat_mono c.flt hk)
    have hp : fltMul c.flt _ (120 * fltOne c.flt) ≤ _ := fltMul_le (fltRepresentable_fifteen_mul hf 3) hq
    rw [fltOfNat_angleOffset hf, fltOfNat_angleRange hf]
    exact fltSub_fits hf (by omega) (by omega)

/-! ### The invariant (R20, R21, R41, R43) -/

/-- `State.WF` without its clause about `updating`, which the rows of format CPHASE taken by themselves do not keep. -/
structure FieldsFit (s : State) : Prop where
  cfg : s.cfg.WF
  ring : s.ring.wf
  ringCells : ∀ e ∈ s.ring, e.1 < 2 * s.cfg.capacity ∧ e.2 < 2 ^ s.cfg.W
  writeIndex : s.writeIndex < 2 ^ s.cfg.IW
  readIndex : s.readIndex < 2 ^ s.cfg.IW
  syncPulseStart : s.syncPulseStart < 2 ^ s.cfg.W
  angleSweep : FltFormat.Fits s.cfg.flt s.angleSweep
  angleCreep : FltFormat.Fits s.cfg.flt s.angleCreep
  cStart : s.cStart < 2 ^ s.cfg.W
  cEnd : s.cEnd < 2 ^ s.cfg.W
  result : resultFits s.cfg.flt s.result

theorem State.wf_iff_fieldsFit (s : State) :
    s.WF ↔ FieldsFit s ∧ (s.updating = true ↔ s.cphase ≠ .idle) :=
  ⟨fun h => ⟨{ h with }, h.updating⟩, fun ⟨h, hu⟩ => { h with updating := hu }⟩

/-- The values of R37 fit whatever the configuration. -/
theorem fieldsFit_reset {c : Config} (hc : c.WF) : FieldsFit { State.reset with cfg := c } where
  cfg := hc
  ring := reset_ring_wf
  ringCells := nofun
  writeIndex := Nat.two_pow_pos _
  readIndex := Nat.two_pow_pos _
  syncPulseStart := Nat.two_pow_pos _
  angleSweep := Nat.two_pow_pos _
  angleCreep := Nat.two_pow_pos _
  cStart := Nat.two_pow_pos _
  cEnd := Nat.two_pow_pos _
  result := trivial

section
variable {s : State} (h : FieldsFit s)
include h

theorem FieldsFit.setInput (ws : List EventWord) : FieldsFit (s.setInput ws) := { h with }

theorem FieldsFit.setUpdating (b : Bool) : FieldsFit (s.setUpdating b) := { h with }

theorem FieldsFit.setEnabled (b : Bool) : FieldsFit (s.setEnabled b) := { h with }

theorem FieldsFit.setRet (b : Bool) : FieldsFit (s.setRet b) := { h with }

theorem FieldsFit.setPhase (p : Phase) : FieldsFit (s.setPhase p) := { h with }

theorem FieldsFit.setResult {r : Result} (hr : resultFits s.cfg.flt r) : FieldsFit (s.setResult r) :=
  { h with result := hr }

theorem FieldsFit.setWriteIndex {i : Index} (hi : i < 2 ^ s.cfg.IW) : FieldsFit (s.setWriteIndex i) :=
  { h with writeIndex := hi }

theorem FieldsFit.setReadIndex {i : Index} (hi : i < 2 ^ s.cfg.IW) : FieldsFit (s.setReadIndex i) :=
  { h with readIndex := hi }

theorem FieldsFit.setStartLatch {x : Ticks} (hx : x < 2 ^ s.cfg.W) : FieldsFit (s.setStartLatch x) :=
  { h with cStart := hx }

theorem FieldsFit.setEndLatch {x : Ticks} (hx : x < 2 ^ s.cfg.W) : FieldsFit (s.setEndLatch x) :=
  { h with cEnd := hx }

theorem FieldsFit.setOrigin {x : Ticks} (hx : x < 2 ^ s.cfg.W) (a : Axis) : FieldsFit (s.setOrigin x a) :=
  { h with syncPulseStart := hx }

theorem FieldsFit.setAngle {v : FltBits} (hv : FltFormat.Fits s.cfg.flt v) (a : Axis) : FieldsFit (s.setAngle a v) := by
  cases a
  · exact { h with angleSweep := hv }
  · exact { h with angleCreep := hv }

/-- A store puts a W-bit field at an address inside the ring, and keeps the canonical form (R41, R42). -/
theorem FieldsFit.slotWrite (i : Index) (f : Field) {v : Ticks} (hv : v < 2 ^ s.cfg.W) :
    FieldsFit (slotWrite s i f v) := by
  have hcells : ∀ e ∈ (Machine.slotWrite s i f v).ring, e.1 < 2 * s.cfg.capacity ∧ e.2 < 2 ^ s.cfg.W := by
    intro e he
    rcases Memory.mem_write he with he | ⟨rfl, -⟩
    · exact h.ringCells e he
    · exact ⟨slotAddr_lt s.cfg i f, hv⟩
  exact { h with ring := Memory.write_wf h.ring _ _, ringCells := hcells }

theorem FieldsFit.slotRead_lt (i : Index) (f : Field) : slotRead s i f < 2 ^ s.cfg.W :=
  Memory.read_lt (Nat.two_pow_pos _) (fun e he => (h.ringCells e he).2) _

/-! Every operation is made of the updates above. -/

theorem FieldsFit.endTick (b : Bool) : FieldsFit (endTick s b) :=
  ((h.setUpdating false).setPhase .idle).setResult trivial

theorem FieldsFit.toPhase (p : Phase) : FieldsFit (toPhase s p) := (h.setPhase p).setResult trivial

theorem FieldsFit.beginOp : FieldsFit (beginOp s) := (h.setUpdating true).toPhase .p1

/-- A beam inside the window stores the angle of a position of at most `SPAN`, since `WINDOW_MAX` is `DEAD_ZONE` and
`SPAN` together (R6, R110). -/
theorem FieldsFit.classArm (cls : PulseClass) : FieldsFit (classArm cls s) := by
  rcases classArm_cases cls s with e | ⟨k, -, -, e⟩ | ⟨-, -, hmax, e⟩ <;> rw [e]
  · exact h
  · exact h.setOrigin h.cStart _
  · obtain ⟨-, -, -, -, hspan, hwindow, -, -, -, -, hflt⟩ := h.cfg
    exact (h.setAngle (angleOf_fits hflt hspan (Nat.sub_le_iff_le_add'.2 (hwindow ▸ hmax))) _).setRet true

theorem FieldsFit.phaseCheck : FieldsFit (phaseCheck s) := by
  rcases phaseCheck_cases s with ⟨-, e⟩ | ⟨-, e⟩ <;> rw [e]
  · exact h.endTick false
  · exact h.toPhase .p2

theorem FieldsFit.phaseDecode : FieldsFit (phaseDecode s) := ((h.setRet false).classArm _).toPhase .p6

theorem FieldsFit.runPhase (p : Phase) : FieldsFit (runPhase p s) := by
  cases p with
  | idle => exact h
  | p1 => exact h.phaseCheck
  | p2 => exact (h.setReadIndex (decMod_lt _ _)).toPhase .p3
  | p3 => exact (h.setStartLatch (h.slotRead_lt _ _)).toPhase .p4
  | p4 => exact (h.setEndLatch (h.slotRead_lt _ _)).toPhase .p5
  | p5 => exact h.phaseDecode
  | p6 => exact (h.setReadIndex (incMod_lt _ _)).endTick _

theorem FieldsFit.tickLatched : FieldsFit (tickLatched s) :=
  (((h.beginOp.toPhase .p2).runPhase .p2).runPhase .p3).runPhase .p4

theorem FieldsFit.wholeTick : FieldsFit (wholeTick s) := by
  rcases wholeTick_eq s with e | e <;> rw [e]
  · exact h.beginOp.endTick false
  · exact h.tickLatched.phaseDecode.runPhase .p6

theorem FieldsFit.takeEdgeInterrupt {handler : State → State} (hh : FieldsFit (handler s)) :
    FieldsFit (takeEdgeInterrupt handler s) := by
  by_cases he : s.enabled = true
  · rw [takeEdgeInterrupt_enabled _ he]
    exact hh.setResult trivial
  · rw [takeEdgeInterrupt_disabled _ (Bool.eq_false_of_not_eq_true he)]
    exact h.setResult trivial

theorem FieldsFit.latchRise {x : Ticks} (hx : x < 2 ^ s.cfg.W) : FieldsFit (latchRise x s) :=
  h.slotWrite _ _ hx

theorem FieldsFit.latchFall {x : Ticks} (hx : x < 2 ^ s.cfg.W) : FieldsFit (latchFall x s) :=
  (h.slotWrite _ _ hx).setWriteIndex (incMod_lt _ _)

theorem FieldsFit.of_consumes {i : Instr} {t : State} (hc : Consumes i s t) : FieldsFit t := by
  cases hc with
  | poll => exact h.wholeTick
  | beginTick => exact h.beginOp
  | stepTick | row => exact h.runPhase _
  | arm => exact h.classArm _

/-- Every operation with a W-bit operand keeps every register inside its width. -/
theorem FieldsFit.of_completes {i : Instr} {t : State} (hi : i.WF s.cfg) (hc : Completes i s t) : FieldsFit t := by
  cases hc with
  | reset => exact (fieldsFit_reset h.cfg).setInput _
  | setup => exact (h.setEnabled true).setResult trivial
  | edgeR => exact h.takeEdgeInterrupt (h.latchRise hi)
  | edgeF => exact h.takeEdgeInterrupt (h.latchFall hi)
  | getX => exact h.setResult h.angleSweep
  | getY => exact h.setResult h.angleCreep
  | isUpd => exact h.setResult trivial
  | consumer hc => exact h.of_consumes hc

end

/-! ### The step -/

theorem bareOp_ok {i j : Instr} {x : Nat} (h : bareOp j x = .ok i) : x = 0 ∧ i = j := by
  rcases bareOp_cases j x with ⟨hx, e⟩ | ⟨-, e⟩ <;> rw [e] at h
  · exact ⟨hx, (Except.ok.inj h).symm⟩
  · exact nomatch h

/-- The operand of the instruction is the field it is decoded from (R61, R63). -/
theorem decodeOp_ok {op x : Nat} {i : Instr} (h : decodeOp op x = .ok i) : i.format = .ev ∧ i.tField = x := by
  unfold decodeOp at h
  split at h
  case h_17 => exact nomatch h
  -- The edges and the reserved codes, which carry their `t` field.
  case h_3 | h_4 | h_11 | h_12 | h_13 | h_14 | h_15 | h_16 => cases h; exact ⟨rfl, rfl⟩
  all_goals
    obtain ⟨rfl, rfl⟩ := bareOp_ok h
    exact ⟨rfl, rfl⟩

/-- Every event word that decodes is that of a well-formed operation of format EV (R61). -/
theorem decode_ok {c : Config} {w : EventWord} {i : Instr} (h : decode c w = .ok i) : i.format = .ev ∧ i.WF c := by
  obtain ⟨hev, hx⟩ := decodeOp_ok h
  exact ⟨hev, lt_of_eq_of_lt hx (Nat.mod_lt _ (Nat.two_pow_pos _))⟩

/-- All that a step can do when it answers a next state: nothing, or one operation of format EV. -/
theorem step_next {s t : State} (h : step s = .next t) :
    t = s ∨ ∃ ws i, i.format = .ev ∧ i.WF s.cfg ∧ exec i (s.setInput ws) = .next t := by
  by_cases hc : s.cfg.WF
  · cases hi : s.input with
    | nil =>
      rw [step_of_input_nil hc hi] at h
      exact .inl (Host.Outcome.next.inj h).symm
    | cons w ws =>
      cases hd : decode s.cfg w with
      | error e => rw [step_of_decode_error hc hi hd] at h; exact nomatch h
      | ok i =>
        obtain ⟨hev, hw⟩ := decode_ok hd
        simp only [step, if_pos hc, fetch_cons hi, hd] at h
        exact .inr ⟨ws, i, hev, hw, h⟩
  · rw [step_of_not_wf hc] at h
    exact nomatch h

/-- Settles O49: the widths by `FieldsFit.of_completes`, the agreement of `updating` with the sequencer by O47. -/
theorem everyStepKeepsTheInvariant : Obligations.EveryStepKeepsTheInvariant := by
  intro s t hs h
  rcases step_next h with rfl | ⟨ws, i, hev, hw, hexec⟩
  · exact hs
  · obtain ⟨hfit, hupdating⟩ := (State.wf_iff_fieldsFit s).1 hs
    exact (State.wf_iff_fieldsFit t).2 ⟨(hfit.setInput ws).of_completes hw (completes_of_exec hexec),
      updatingTracksTheSequencer i (s.setInput ws) t hev hupdating hexec⟩

/-- Settles O48: every register holds a value of R37, and the default configuration is the scaled one of unit 1. -/
theorem resetMeetsTheInvariant : Obligations.ResetMeetsTheInvariant :=
  (State.wf_iff_fieldsFit _).2 ⟨fieldsFit_reset (scaledConfigurationsAreWellFormed 1 le_rfl (by decide)),
    nofun, fun hne => absurd rfl hne⟩

/-- Settles O11: R37 is how `State.reset` is written; its ring lists no field, and such a field reads 0. -/
theorem resetStateHoldsTheResetValues : Obligations.ResetStateHoldsTheResetValues :=
  ⟨fun _ _ => rfl, rfl, rfl, rfl, rfl, rfl, rfl, rfl, rfl, rfl, rfl, rfl, rfl⟩

end Sys2Proof.Machine

/-! PROOFS. The statements of 20_memory.md: a step and a trace run the decoded operations (R48), what the producer's
edges depend on (R51), the fresh load of P2 (R52), and the record a lapped tick mixes (R53). -/

namespace Sys2Proof.Machine

/-! ### A step runs the decoded operation (R48, R61) -/

theorem step_of_decode_ok {s : State} {w : EventWord} {ws : List EventWord} {i : Instr} (hc : s.cfg.WF)
    (hi : s.input = w :: ws) (hd : decode s.cfg w = .ok i) : step s = exec i (s.setInput ws) := by
  simp only [step, if_pos hc, fetch_cons hi, hd]

/-- Settles O6: of the three outcomes of fetch and decode, this is the one that runs an operation. -/
theorem stepRunsTheDecodedOperation : Obligations.StepRunsTheDecodedOperation :=
  fun _ _ _ _ hc hi hd => step_of_decode_ok hc hi hd

/-! ### STEP (R102) and the whole tick (R113) -/

/-- STEP runs the phase that `cphase` names. -/
theorem exec_stepTick {s : State} {p : Phase} (hs : s.cphase = p) (hp : p ≠ .idle) :
    exec .stepTick s = .next (runPhase p s) := by
  show execStepTick s = _
  rw [execStepTick, hs]
  cases p with
  | idle => exact absurd rfl hp
  | p1 | p2 | p3 | p4 | p5 | p6 => rfl

theorem exec_stepTick_idle {s : State} (hs : s.cphase = .idle) : exec .stepTick s = .refused .stepWhileIdle := by
  show execStepTick s = _
  rw [execStepTick, hs]
  rfl

/-- With no data a whole tick ends at P1. -/
theorem wholeTick_of_eq {s : State} (h : s.readIndex = s.writeIndex) : wholeTick s = endTick (beginOp s) false := by
  rcases wholeTick_cases s with ⟨-, e⟩ | ⟨hne, -⟩
  · exact e
  · exact absurd h hne

/-- With data a whole tick latches a record, decodes it and advances. -/
theorem wholeTick_of_ne {s : State} (h : s.readIndex ≠ s.writeIndex) :
    wholeTick s = phaseAdvance (phaseDecode (tickLatched s)) := by
  rcases wholeTick_cases s with ⟨heq, -⟩ | ⟨-, e⟩
  · exact absurd heq h
  · exact e

/-! ### No operation reads the input -/

/-- The outcome whose next state has the words `ws` still to be delivered. -/
def withInput (ws : List EventWord) : Out → Out
  | .next t => .next (t.setInput ws)
  | .fault r => .fault r
  | .refused r => .refused r

section
variable (ws : List EventWord)

theorem whenIdle_setInput (r : Refusal) (s : State) {k : State → State}
    (hk : k (s.setInput ws) = (k s).setInput ws) :
    whenIdle r (s.setInput ws) k = withInput ws (whenIdle r s k) := by
  rw [whenIdle, whenIdle, hk, apply_ite (withInput ws)]
  rfl

theorem takeEdgeInterrupt_setInput (s : State) {handler : State → State}
    (hh : handler (s.setInput ws) = (handler s).setInput ws) :
    takeEdgeInterrupt handler (s.setInput ws) = (takeEdgeInterrupt handler s).setInput ws := by
  rw [takeEdgeInterrupt, takeEdgeInterrupt, hh, State.setInput_enabled, ← apply_ite (State.setInput · ws)]
  rfl

theorem classArm_setInput (cls : PulseClass) (s : State) :
    classArm cls (s.setInput ws) = (classArm cls s).setInput ws := by
  cases cls with
  | unclassified => rfl
  | sync k =>
    rw [classArm, classArm, syncArm, syncArm, apply_ite (State.setInput · ws)]
    rfl
  | beam =>
    rw [classArm, classArm, beamArm, beamArm, apply_ite (State.setInput · ws)]
    rfl

theorem phaseCheck_setInput (s : State) : phaseCheck (s.setInput ws) = (phaseCheck s).setInput ws := by
  rw [phaseCheck, phaseCheck, apply_ite (State.setInput · ws)]
  rfl

theorem phaseDecode_setInput (s : State) : phaseDecode (s.setInput ws) = (phaseDecode s).setInput ws :=
  congrArg (toPhase · .p6) (classArm_setInput ws _ (s.setRet false))

theorem runPhase_setInput (p : Phase) (s : State) : runPhase p (s.setInput ws) = (runPhase p s).setInput ws := by
  cases p with
  | p1 => exact phaseCheck_setInput ws s
  | p5 => exact phaseDecode_setInput ws s
  | idle | p2 | p3 | p4 | p6 => rfl

theorem wholeTick_setInput (s : State) : wholeTick (s.setInput ws) = (wholeTick s).setInput ws := by
  by_cases h : s.readIndex = s.writeIndex
  · rw [wholeTick_of_eq h, wholeTick_of_eq (s := s.setInput ws) h]
    rfl
  · rw [wholeTick_of_ne h, wholeTick_of_ne (s := s.setInput ws) h]
    exact congrArg phaseAdvance (phaseDecode_setInput ws (tickLatched s))

theorem exec_stepTick_setInput (s : State) :
    exec .stepTick (s.setInput ws) = withInput ws (exec .stepTick s) := by
  by_cases hp : s.cphase = .idle
  · rw [exec_stepTick_idle hp, exec_stepTick_idle (s := s.setInput ws) hp]
    rfl
  · rw [exec_stepTick rfl hp, exec_stepTick (s := s.setInput ws) rfl hp]
    exact congrArg _ (runPhase_setInput ws s.cphase s)

theorem rowClass_setInput (i : Instr) (s : State) : rowClass i (s.setInput ws) = rowClass i s := by
  cases i <;> rfl

theorem exec_setInput_of_rowClass {i : Instr} {s : State} {cls : PulseClass} (hi : rowClass i s = some cls) :
    exec i (s.setInput ws) = withInput ws (exec i s) := by
  rw [exec_of_rowClass hi, exec_of_rowClass ((rowClass_setInput ws i s).trans hi), classArm_setInput]
  rfl

/-- An operation neither reads nor writes the words still to be delivered. -/
theorem exec_setInput (i : Instr) (s : State) : exec i (s.setInput ws) = withInput ws (exec i s) := by
  cases i with
  | reset | isUpd => rfl
  | setup =>
    show execSetup (s.setInput ws) = withInput ws (execSetup s)
    rw [execSetup, execSetup, apply_ite (withInput ws)]
    rfl
  | edgeF | edgeR => exact congrArg _ (takeEdgeInterrupt_setInput ws s rfl)
  | poll => exact whenIdle_setInput ws _ s (wholeTick_setInput ws s)
  | getX | getY | beginTick => exact whenIdle_setInput ws _ s rfl
  | stepTick => exact exec_stepTick_setInput ws s
  | reserved1010 | reserved1011 | reserved1100 | reserved1101 | reserved1110 | reserved1111 | idle => rfl
  | p1Check => exact congrArg _ (phaseCheck_setInput ws s)
  | p2Seek | p3LoadStart | p4LoadEnd | p6Advance => rfl
  | p5Decode => exact congrArg _ (phaseDecode_setInput ws s)
  | sync0 | sync1 | sync2 | sync3 | sync4 | sync5 | sync6 | sync7 => exact exec_setInput_of_rowClass ws rfl
  | classNone | classBeam | classSync => exact exec_setInput_of_rowClass ws rfl

end

/-! ### A trace runs its operations (R48, R69) -/

/-- An event operation is decoded again from its code and its `t` field (R61, R62). -/
theorem decodeOp_code_tField {i : Instr} (hi : i.format = .ev) : decodeOp i.code i.tField = .ok i := by
  cases i <;> simp only [Instr.format, reduceCtorEq] at hi <;> rfl

theorem run_succ_of_next {M : Host.Core} {s t : M.State} (h : M.step s = .next t) (n : Nat) :
    M.run (n + 1) s = M.run n t := by
  rw [Host.Core.run, h]

theorem run_succ_of_refused {M : Host.Core} {s : M.State} {r : M.Refusal} (h : M.step s = .refused r) (n : Nat) :
    M.run (n + 1) s = .refused r := by
  rw [Host.Core.run, h]

theorem step_of_encode {s : State} {i : Instr} {ws : List EventWord} (hc : s.cfg.WF) (hev : i.format = .ev)
    (hw : i.WF s.cfg) : step (s.setInput (encode s.cfg i :: ws)) = withInput ws (exec i s) := by
  have hd : decode s.cfg (encode s.cfg i) = .ok i := (decode_encode_ev hev hw).trans (decodeOp_code_tField hev)
  rw [step_of_decode_ok (s := s.setInput (encode s.cfg i :: ws)) hc rfl hd, State.setInput_setInput, exec_setInput]

/-- Settles O10, by induction on the operations: a step is the operation of the word at the head (`step_of_encode`),
which keeps the configuration and does not see the words behind it. -/
theorem traceRunsAsItsOperations : Obligations.TraceRunsAsItsOperations := by
  intro is ws s hc his
  induction is generalizing s with
  | nil => rfl
  | cons i is ih =>
    obtain ⟨⟨hev, hw⟩, his⟩ := List.forall_mem_cons.1 his
    have hstep := step_of_encode (ws := is.map (encode s.cfg) ++ ws) hc hev hw
    rw [runInstrs, exec_setInput]
    cases he : exec i s with
    | next t =>
      obtain ⟨hcfg, -⟩ := eachAgentWritesOnlyItsOwnState i s t he
      rw [he] at hstep
      refine (run_succ_of_next (M := Sys2Proof.core) hstep is.length).trans ?_
      rw [← hcfg] at hc his ⊢
      exact ih t hc his
    | refused r =>
      rw [he] at hstep
      exact run_succ_of_refused (M := Sys2Proof.core) hstep is.length
    | fault r => exact nomatch r

/-! ### What the producer's edges depend on (R51) -/

/-- The two states agree on all that an edge reads. -/
structure ProducerAgrees (s s' : State) : Prop where
  cfg : s.cfg = s'.cfg
  enabled : s.enabled = s'.enabled
  ring : s.ring = s'.ring
  writeIndex : s.writeIndex = s'.writeIndex

section
variable {s s' : State} (h : ProducerAgrees s s')
include h

theorem ProducerAgrees.setResult (r r' : Result) : ProducerAgrees (s.setResult r) (s'.setResult r') := { h with }

theorem ProducerAgrees.latchRise (x : Ticks) : ProducerAgrees (latchRise x s) (latchRise x s') := by
  refine { h with ring := ?_ }
  show s.ring.write (slotAddr s.cfg s.writeIndex .start) x = s'.ring.write (slotAddr s'.cfg s'.writeIndex .start) x
  rw [h.ring, h.cfg, h.writeIndex]

theorem ProducerAgrees.latchFall (x : Ticks) : ProducerAgrees (latchFall x s) (latchFall x s') := by
  refine { h with ring := ?_, writeIndex := ?_ }
  · show s.ring.write (slotAddr s.cfg s.writeIndex .finish) x =
      s'.ring.write (slotAddr s'.cfg s'.writeIndex .finish) x
    rw [h.ring, h.cfg, h.writeIndex]
  · show incMod s.cfg.IW s.writeIndex = incMod s'.cfg.IW s'.writeIndex
    rw [h.cfg, h.writeIndex]

theorem ProducerAgrees.takeEdgeInterrupt {handler : State → State} (hh : ProducerAgrees (handler s) (handler s')) :
    ProducerAgrees (takeEdgeInterrupt handler s) (takeEdgeInterrupt handler s') := by
  rw [Machine.takeEdgeInterrupt, Machine.takeEdgeInterrupt, ← h.enabled]
  split
  · exact hh.setResult _ _
  · exact h.setResult _ _

/-- After an edge the two states agree as before. -/
theorem ProducerAgrees.exec_edge {i : Instr} (hi : isEdge i = true) :
    ∃ t t', exec i s = .next t ∧ exec i s' = .next t' ∧ ProducerAgrees t t' := by
  cases i <;> simp only [isEdge, Bool.false_eq_true] at hi
  case edgeF x => exact ⟨_, _, rfl, rfl, h.takeEdgeInterrupt (h.latchFall x)⟩
  case edgeR x => exact ⟨_, _, rfl, rfl, h.takeEdgeInterrupt (h.latchRise x)⟩

theorem ProducerAgrees.runInstrs_edges {es : List Instr} (hes : EdgesOnly es) :
    ∃ t t', runInstrs es s = .next t ∧ runInstrs es s' = .next t' ∧ ProducerAgrees t t' := by
  induction es generalizing s s' with
  | nil => exact ⟨s, s', rfl, rfl, h⟩
  | cons i es ih =>
    obtain ⟨hi, hes⟩ := List.forall_mem_cons.1 hes
    obtain ⟨u, u', hu, hu', hagree⟩ := h.exec_edge hi
    rw [runInstrs_cons hu, runInstrs_cons hu']
    exact ih hagree hes

end

/-- Settles O21: the agreement on what an edge reads is kept by every edge. -/
theorem producerIgnoresTheConsumer : Obligations.ProducerIgnoresTheConsumer := by
  intro es s s' hes hcfg hen hring hwrite
  have h : ProducerAgrees s s' := ⟨hcfg, hen, hring, hwrite⟩
  obtain ⟨t, t', ht, ht', hagree⟩ := h.runInstrs_edges hes
  exact ⟨t, t', ht, ht', hagree.ring, hagree.writeIndex⟩

/-! ### The fresh load of `writeIndex` in P2 (R52, R104) -/

/-- While `enabled = 1` every falling edge moves `writeIndex` on by one, and a rising edge leaves it (R81, R82). -/
theorem runInstrs_edges_writeIndex {es : List Instr} (hes : EdgesOnly es) {s : State} (he : s.enabled = true)
    (hw : s.writeIndex < 2 ^ s.cfg.IW) :
    ∃ m r, runInstrs es s = .next { s with
      ring := m, writeIndex := (s.writeIndex + publishes es) % 2 ^ s.cfg.IW, result := r } := by
  induction es generalizing s with
  | nil => exact ⟨s.ring, s.result, by rw [publishes, Nat.add_zero, Nat.mod_eq_of_lt hw]; rfl⟩
  | cons i es ih =>
    obtain ⟨hi, hes'⟩ := List.forall_mem_cons.1 hes
    cases i <;> simp only [isEdge, Bool.false_eq_true] at hi
    case edgeF x =>
      obtain ⟨m, r, hr⟩ := ih hes' (s := (latchFall x s).setResult .nothing) he (incMod_lt _ _)
      have hsum : (incMod s.cfg.IW s.writeIndex + publishes es) % 2 ^ s.cfg.IW =
          (s.writeIndex + publishes (.edgeF x :: es)) % 2 ^ s.cfg.IW := by
        rw [incMod, Nat.mod_add_mod, publishes, Nat.add_assoc, Nat.add_comm 1]
      refine ⟨m, r, ?_⟩
      rw [runInstrs_cons (exec_edgeF_enabled x he), hr, ← hsum]
      rfl
    case edgeR x =>
      obtain ⟨m, r, hr⟩ := ih hes' (s := (latchRise x s).setResult .nothing) he hw
      exact ⟨m, r, (runInstrs_cons (exec_edgeR_enabled x he) es).trans hr⟩

/-- Settles O40: P1 moves on because there is data, the edges count up `writeIndex`, and P2 takes the index before the
one they leave. -/
theorem seekTakesAPublishAfterTheCheck : Obligations.SeekTakesAPublishAfterTheCheck := by
  intro s es hs he hphase hdata hes
  have hp1 : phaseCheck s = toPhase s .p2 := if_neg hdata
  have hcheck : exec .stepTick s = .next (toPhase s .p2) := hp1 ▸ exec_stepTick hphase nofun
  obtain ⟨m, r, hedges⟩ := runInstrs_edges_writeIndex hes (s := toPhase s .p2) he hs.writeIndex
  have hrun := (runInstrs_cons hcheck _).trans
    ((runInstrs_append hedges _).trans (runInstrs_cons (exec_stepTick (p := .p2) rfl nofun) []))
  refine ⟨_, by rw [List.append_assoc]; exact hrun, rfl, rfl, ?_⟩
  calc ((decMod s.cfg.IW ((s.writeIndex + publishes es) % 2 ^ s.cfg.IW) : Nat) : Int)
      = (((s.writeIndex + publishes es) % 2 ^ s.cfg.IW : Nat) - (1 : Nat) : Int) % (2 ^ s.cfg.IW : Nat) :=
        subMod_eq_emod _ _ _
    _ = ((s.writeIndex : Int) + publishes es - 1) % (2 ^ s.cfg.IW : Nat) := by
        rw [Int.natCast_emod, Int.emod_sub_emod, Nat.cast_add, Nat.cast_one]

/-! ### The record a lapped tick mixes (R53, V-C7) -/

/-- Reset with the ring of two slots of V-C7. -/
def twoSlotReset : State := { State.reset with cfg := { Config.default with K := 1, IW := 1 } }

/-- The tick has loaded the start of the second pulse, of ticks 100000 to 110000, from slot 1. -/
def secondStartLoaded : State :=
  { twoSlotReset with
    ring := [(1, 10), (2, 100000), (3, 110000)], readIndex := 1, updating := true, enabled := true, cphase := .p4
    cStart := 100000, cEnd := 10 }

/-- The fourth pulse, of ticks 150000 to 162500, has been stored over the second. -/
def secondOverwritten : State :=
  { secondStartLoaded with ring := [(0, 120000), (1, 120010), (2, 150000), (3, 162500)] }

/-- The start of the second pulse and the end of the fourth have been decoded as a sync of code 0. -/
def mixedSyncDecoded : State :=
  { secondOverwritten with
    readIndex := 0, syncPulseStart := 100000, updating := false, cphase := .idle, cEnd := 162500
    result := .bool false }

theorem run_to_secondStartLoaded :
    runInstrs ([.reset, .setup] ++ pulseEdges 0 10 ++ [.poll] ++ pulseEdges 100000 110000 ++
      [.beginTick, .stepTick, .stepTick, .stepTick]) twoSlotReset = .next secondStartLoaded := rfl

theorem run_to_secondOverwritten :
    runInstrs (pulseEdges 120000 120010 ++ pulseEdges 150000 162500) secondStartLoaded = .next secondOverwritten :=
  rfl

theorem run_to_mixedSyncDecoded :
    runInstrs [.stepTick, .stepTick, .stepTick] secondOverwritten = .next mixedSyncDecoded := rfl

/-- Settles O41: the lap falls between the loads of P3 and P4, and 162500 - 100000 is the duration of a sync. -/
theorem overrunCanMixTwoPulses : Obligations.OverrunCanMixTwoPulses := by
  have hlap := runInstrs_append run_to_secondStartLoaded (pulseEdges 120000 120010 ++ pulseEdges 150000 162500)
  have hrun := runInstrs_append (hlap.trans run_to_secondOverwritten) [.stepTick, .stepTick, .stepTick]
  exact ⟨mixedSyncDecoded, hrun.trans run_to_mixedSyncDecoded, rfl, rfl, rfl, rfl⟩

end Sys2Proof.Machine

/-! PROOFS. The statements of 30_encoding.md: decoder and encoder are inverse in both directions (R61 to R68), which
words are refused (R64), what a placed table word runs (logs 3 and 8), and the rows of the sync codes and the classes as
arms of P5 (log 7). -/

namespace Sys2Proof.Machine

/-! ### Decoding an encoded instruction (R61, R65, R66, R68) -/

/-- The word of an event instruction is `{op, t}` (R61). -/
theorem encode_of_ev (c : Config) {i : Instr} (hi : i.format = .ev) :
    encode c i = i.code * 2 ^ c.W + i.tField := by
  rw [encode, hi]

/-- The word of a row of a short format is its number alone (R68). -/
theorem encode_of_ne_ev (c : Config) {i : Instr} (hi : i.format ≠ .ev) : encode c i = i.code := by
  rw [encode]
  cases hf : i.format with
  | ev => exact absurd hf hi
  | cphase | sync3 | class2 => rfl

/-- The decoder of a short format finds a row again from its number (R65, R66, R68). -/
theorem decodeFormat_code (c : Config) {i : Instr} (hi : i.format ≠ .ev) :
    decodeFormat c i.format i.code = .ok i := by
  cases i <;> simp only [Instr.format, ne_eq, not_true_eq_false] at hi <;> rfl

/-- Settles O1: an event word has its two fields found again, a word of a short format is its row's number. -/
theorem decodeInvertsEncode : Obligations.DecodeInvertsEncode := by
  intro c i hw
  by_cases hf : i.format = .ev
  · rw [hf]
    exact (decode_encode_ev hf hw).trans (decodeOp_code_tField hf)
  · rw [encode_of_ne_ev c hf]
    exact decodeFormat_code c hf

/-! ### What an accepted word says of its instruction (R61, R64, R68) -/

/-- The instruction is the row of number `n` in the format `f`, and has no operand. -/
structure IsRow (f : Format) (n : Nat) (i : Instr) : Prop where
  format : i.format = f
  tField : i.tField = 0
  code : i.code = n

/-- A short format's decoder answers with the row whose number the word is. -/
theorem decodeFormat_isRow {c : Config} {f : Format} {w : Nat} {i : Instr} (hf : f ≠ .ev)
    (h : decodeFormat c f w = .ok i) : IsRow f w i := by
  cases f with
  | ev => exact absurd rfl hf
  | cphase | sync3 | class2 =>
    simp only [decodeFormat, decodePhase, decodeSyncCode, decodeClass] at h
    split at h <;> cases h <;> exact ⟨rfl, rfl, rfl⟩

/-- A row of a short format is well formed in every configuration, and its number is its word. -/
theorem IsRow.encodes {f : Format} {n : Nat} {i : Instr} (h : IsRow f n i) (hf : f ≠ .ev) (c : Config) :
    i.format = f ∧ i.WF c ∧ encode c i = n :=
  ⟨h.format, lt_of_eq_of_lt h.tField (Nat.two_pow_pos _), (encode_of_ne_ev c (h.format ▸ hf)).trans h.code⟩

/-- The code of the instruction is the `op` field it is decoded from (R62). -/
theorem decodeOp_ok_code {op x : Nat} {i : Instr} (h : decodeOp op x = .ok i) : i.code = op := by
  unfold decodeOp at h
  split at h
  case h_17 => exact nomatch h
  -- The edges and the reserved codes, which carry their `t` field.
  case h_3 | h_4 | h_11 | h_12 | h_13 | h_14 | h_15 | h_16 => cases h; rfl
  all_goals
    obtain ⟨-, rfl⟩ := bareOp_ok h
    rfl

/-- Settles O2: an event word is put together again from its two fields; a word of a short format is its row's
number. -/
theorem encodeInvertsDecode : Obligations.EncodeInvertsDecode := by
  intro c f w i h
  by_cases hf : f = .ev
  · subst hf
    obtain ⟨hev, ht⟩ := decodeOp_ok h
    obtain ⟨-, hw⟩ := decode_ok h
    refine ⟨hev, hw, ?_⟩
    calc encode c i = i.code * 2 ^ c.W + i.tField := encode_of_ev c hev
      _ = w / 2 ^ c.W * 2 ^ c.W + w % 2 ^ c.W := by rw [decodeOp_ok_code h, ht]
      _ = w := Nat.div_add_mod' w _
  · exact (decodeFormat_isRow hf h).encodes hf c

/-- Settles O3: each word of section 5 is closed, and so is each of the short formats' words. -/
theorem workedWordsDecode : Obligations.WorkedWordsDecode :=
  ⟨rfl, rfl, rfl, rfl, rfl, rfl, rfl, rfl, rfl, rfl, rfl, rfl, rfl, rfl, rfl, rfl, rfl⟩

/-! ### The words that are refused (R64) -/

/-- Settles O5: no reserved operation looks at its other bits or at the state. -/
theorem reservedOperationsAreRefused : Obligations.ReservedOperationsAreRefused :=
  fun _ _ => ⟨rfl, rfl, rfl, rfl, rfl, rfl⟩

/-- A reserved code decodes whatever the bits below it are, to an operation that is refused (R64 (a), log 11). -/
theorem decodeOp_reserved {op : Nat} (hlow : 10 ≤ op) (hhigh : op ≤ 15) (t : Nat) :
    ∃ i, decodeOp op t = .ok i ∧ ∀ s, exec i s = .refused .reservedOp := by
  interval_cases op <;> exact ⟨_, rfl, fun _ => rfl⟩

/-- R64 (b), for the eight operations without operand. -/
theorem decodeOp_nonzeroOperand {op t : Nat} (hop : op ≤ 9) (hfall : op ≠ 2) (hrise : op ≠ 3) (ht : t ≠ 0) :
    decodeOp op t = .error .nonzeroOperand := by
  have hbare : op = 0 ∨ op = 1 ∨ op = 4 ∨ op = 5 ∨ op = 6 ∨ op = 7 ∨ op = 8 ∨ op = 9 := by omega
  rcases hbare with rfl | rfl | rfl | rfl | rfl | rfl | rfl | rfl <;> exact if_neg ht

theorem exec_setup_enabled {s : State} (hs : s.enabled = true) : exec .setup s = .refused .secondSetup := if_pos hs

/-- Settles O4: a reserved word decodes and its operation is refused, a nonzero operand is refused by the decoder, and
an untimely operation by the sequencer or by `enabled`. -/
theorem reservedNonzeroAndUntimelyWordsAreRefused : Obligations.ReservedNonzeroAndUntimelyWordsAreRefused := by
  refine ⟨fun s w ws hc hi => ⟨fun hlow hhigh => ?_, fun hop hfall hrise ht => ?_⟩,
    fun s => exec_setup_enabled, fun s => exec_stepTick_idle,
    fun s hs => ⟨whenIdle_busy hs, whenIdle_busy hs, whenIdle_busy hs, whenIdle_busy hs⟩⟩
  · obtain ⟨i, hd, hexec⟩ := decodeOp_reserved hlow hhigh (w % 2 ^ s.cfg.W)
    exact (step_of_decode_ok hc hi hd).trans (hexec _)
  · exact step_of_decode_error hc hi (decodeOp_nonzeroOperand hop hfall hrise ht)

/-! ### A placed table word (logs 3 and 8) -/

/-- STEP is the row of the phase that `cphase` names, at IDLE too (R102). -/
theorem exec_stepTick_eq_phaseRow (s : State) : exec .stepTick s = exec (phaseRow s.cphase) s := by
  show execStepTick s = _
  rw [execStepTick]
  cases s.cphase <;> rfl

theorem decodePhase_eq_phaseRow {w : Nat} {i : Instr} (h : decodePhase w = .ok i) : i = phaseRow (phaseOfCode w) := by
  unfold decodePhase at h
  split at h <;> cases h <;> rfl

theorem decode_stepWord (c : Config) : decode c (stepWord c) = .ok .stepTick :=
  decode_encode_ev rfl (Nat.two_pow_pos _)

theorem eq_ok_of_toOption_eq_some {ε α : Type} {e : Except ε α} {a : α} (h : e.toOption = some a) : e = .ok a := by
  cases e with
  | ok b => exact congrArg _ (Option.some.inj h)
  | error _ => exact nomatch h

/-- Settles O9: the word placed first is the one the step delivers; for a phase word it is STEP, which runs the row of
the phase that `cphase` was set to. -/
theorem placedTableWordRunsNext : Obligations.PlacedTableWordRunsNext := by
  refine ⟨fun s w i hc hd => ?_, fun s w i hc hd => ?_⟩
  · have hdec : decode s.cfg w = .ok i := by
      rw [hc]
      exact eq_ok_of_toOption_eq_some hd
    exact step_of_decode_ok (s := s.withFetchWord 40 w) (hc ▸ resetMeetsTheInvariant.cfg) rfl hdec
  · have hi : i = phaseRow (phaseOfCode w) := decodePhase_eq_phaseRow (eq_ok_of_toOption_eq_some hd)
    calc step (s.withFetchWord 8 w)
        = exec .stepTick ((s.withFetchWord 8 w).setInput s.input) :=
          step_of_decode_ok (s := s.withFetchWord 8 w) hc rfl (decode_stepWord s.cfg)
      _ = exec i ((s.withFetchWord 8 w).setInput s.input) := by
          rw [exec_stepTick_eq_phaseRow, hi]
          rfl

/-! ### The arms of P5 as rows (R65, R66, R107 to R111, log 7) -/

/-- R109: a skipped sync changes nothing. -/
theorem syncArm_of_skip {k : SyncCode} (hk : k.getLsbD 2 = true) (s : State) : syncArm k s = s := if_pos hk

/-- R108: a sync that is not skipped sets the origin to the latched start, and the axis to that of its code. -/
theorem syncArm_of_not_skip {k : SyncCode} (hk : k.getLsbD 2 = false) (s : State) :
    syncArm k s = { s with syncPulseStart := s.cStart, activeAxis := if k.getLsbD 0 then .creep else .sweep } := by
  rw [← ofBit_axisBit k]
  exact if_neg (by rw [skipBit, hk]; exact Bool.false_ne_true)

theorem exec_row_of_skip {i : Instr} {s : State} {k : SyncCode} (hi : rowClass i s = some (.sync k))
    (hk : k.getLsbD 2 = true) : exec i s = .next s :=
  (exec_of_rowClass hi).trans (congrArg _ (syncArm_of_skip hk s))

theorem exec_row_of_not_skip {i : Instr} {s : State} {k : SyncCode} (hi : rowClass i s = some (.sync k))
    (hk : k.getLsbD 2 = false) :
    exec i s =
      .next { s with syncPulseStart := s.cStart, activeAxis := if k.getLsbD 0 then .creep else .sweep } :=
  (exec_of_rowClass hi).trans (congrArg _ (syncArm_of_not_skip hk s))

/-- Settles O29: each row is the arm of its code, and the skip bit is set in 4 to 7. -/
theorem syncCodeRowsSetTheOriginOrNothing : Obligations.SyncCodeRowsSetTheOriginOrNothing :=
  fun _ => ⟨exec_row_of_not_skip (k := 0) rfl rfl, exec_row_of_not_skip (k := 1) rfl rfl,
    exec_row_of_not_skip (k := 2) rfl rfl, exec_row_of_not_skip (k := 3) rfl rfl,
    exec_row_of_skip (k := 4) rfl rfl, exec_row_of_skip (k := 5) rfl rfl,
    exec_row_of_skip (k := 6) rfl rfl, exec_row_of_skip (k := 7) rfl rfl⟩

/-- A natural that is the remainder of the integer difference is the modular difference (R9). -/
theorem eq_subMod_of_eq_emod {w a b d : Nat} (h : (d : Int) = ((a : Int) - b) % (2 ^ w : Nat)) : d = subMod w a b :=
  Int.natCast_inj.1 (h.trans (subMod_eq_emod w a b).symm)

/-- R110: outside the closed window a beam is discarded. -/
theorem beamArm_outside {s : State} (h : relativeStart s < s.cfg.deadZone ∨ s.cfg.windowMax < relativeStart s) :
    beamArm s = s := if_pos h

/-- R110: inside the closed window the angle of the active axis is stored. -/
theorem beamArm_inside {s : State} (hlow : s.cfg.deadZone ≤ relativeStart s)
    (hhigh : relativeStart s ≤ s.cfg.windowMax) :
    beamArm s = (s.setAngle s.activeAxis (angleOf s.cfg (relativeStart s - s.cfg.deadZone))).setRet true :=
  if_neg (not_or.2 ⟨not_lt.2 hlow, not_lt.2 hhigh⟩)

theorem rowClass_classSync_of_sync {s : State} {k : SyncCode} (h : latchedClass s = .sync k) :
    rowClass .classSync s = some (.sync k) := by
  rcases latchedCode_cases s with hk | ⟨hno, -⟩
  · exact congrArg some (hk.symm.trans h)
  · exact absurd h (hno k)

/-- For a record that is no sync pulse the row takes code 0 (R66, log 7). -/
theorem rowClass_classSync_of_not_sync {s : State} (h : ∀ k, latchedClass s ≠ .sync k) :
    rowClass .classSync s = some (.sync 0) := by
  rcases latchedCode_cases s with hk | ⟨-, h0⟩
  · exact absurd hk (h _)
  · exact congrArg (some ∘ PulseClass.sync) h0

/-- Settles O30: `d` and `rel` are the duration and the position the arms compute; each row is the arm of its class, and
CLASS.SYNC the arm of the latched code. -/
theorem classRowsTakeTheirArm : Obligations.ClassRowsTakeTheirArm := by
  intro s d rel hd hrel
  obtain rfl : d = latchedDuration s := eq_subMod_of_eq_emod hd
  obtain rfl : rel = relativeStart s := eq_subMod_of_eq_emod hrel
  refine ⟨rfl, fun hout => congrArg _ (beamArm_outside hout), fun hlow hhigh => ?_,
    fun k hk hskip => exec_row_of_skip (rowClass_classSync_of_sync hk) hskip,
    fun k hk hskip => exec_row_of_not_skip (rowClass_classSync_of_sync hk) hskip,
    fun hno => exec_row_of_not_skip (rowClass_classSync_of_not_sync hno) rfl⟩
  have hbeam : exec .classBeam s = .next _ := congrArg Host.Outcome.next (beamArm_inside hlow hhigh)
  exact ⟨_, hbeam, State.angle_setAngle_same s _ _, fun a ha => State.angle_setAngle_other s _ ha, rfl⟩

end Sys2Proof.Machine

/-! PROOFS. The statements of 40_edge_timestamper.md: what each edge does before and after SETUP (R81 to R83), and where
a train of pulses is stored (R86, R88). -/

namespace Sys2Proof.Machine

/-! ### One edge (R81 to R83) -/

/-- While `enabled = 0` an edge changes nothing but the result port (R83). -/
theorem exec_edge_disabled {i : Instr} (hi : isEdge i = true) {s : State} (h : s.enabled = false) :
    exec i s = .next { s with result := .nothing } := by
  cases i <;> simp only [isEdge, Bool.false_eq_true] at hi
  case edgeF x => exact congrArg _ (takeEdgeInterrupt_disabled (latchFall x) h)
  case edgeR x => exact congrArg _ (takeEdgeInterrupt_disabled (latchRise x) h)

/-- Settles O18: an edge of either kind leaves a state with `enabled = 0` alone. -/
theorem edgesBeforeSetupChangeNothing : Obligations.EdgesBeforeSetupChangeNothing :=
  fun _ _ h => ⟨exec_edge_disabled rfl h, exec_edge_disabled rfl h⟩

/-- Settles O16: the work of the edge is one SlotWrite of the start field. -/
theorem risingEdgeStoresStart : Obligations.RisingEdgeStoresStart :=
  ⟨fun c _ ht => decode_word c 3 ht, fun _ _ hoff => exec_edge_disabled rfl hoff,
    fun t _ hring hon => ⟨_, exec_edgeR_enabled t hon, slotRead_slotWrite_same hring _ .start t,
      fun _ ha => Memory.read_write_other t ha, rfl⟩⟩

/-- Settles O17: the work of the edge is one SlotWrite of the end field and the increment of `writeIndex`. -/
theorem fallingEdgeStoresEndAndPublishes : Obligations.FallingEdgeStoresEndAndPublishes :=
  ⟨fun c _ ht => decode_word c 2 ht, fun _ _ hoff => exec_edge_disabled rfl hoff,
    fun t _ hring hon => ⟨_, exec_edgeF_enabled t hon, slotRead_slotWrite_same hring _ .finish t,
      fun _ ha => Memory.read_write_other t ha, rfl⟩⟩

/-! ### Slots and indices (R41) -/

/-- A SlotRead sees of the index only the slot it names. -/
theorem slotRead_congr_slot {s : State} {i j : Index} (h : slotOf s.cfg i = slotOf s.cfg j) (f : Field) :
    slotRead s i f = slotRead s j f := by
  rw [slotRead, slotRead, slotAddr, slotAddr, h]

/-- Two indices less than CAPACITY apart name different slots. -/
theorem slotOf_add_ne (c : Config) (w : Index) {n m : Nat} (hlt : n < m) (hnear : m < n + c.capacity) :
    slotOf c (w + n) ≠ slotOf c (w + m) := by
  intro h
  have hmod : n ≡ m [MOD c.capacity] := Nat.ModEq.add_left_cancel' w h
  have hdvd : c.capacity ∣ m - n := (Nat.modEq_iff_dvd' hlt.le).1 hmod
  have := Nat.le_of_dvd (Nat.sub_pos_of_lt hlt) hdvd
  omega

/-! ### One pulse (R81, R82) -/

/-- What the two edges of a pulse do while `enabled = 1`. -/
def storePulse (p : Ticks × Ticks) (s : State) : State :=
  (latchFall p.2 ((latchRise p.1 s).setResult .nothing)).setResult .nothing

theorem runInstrs_pulseEdges {s : State} (h : s.enabled = true) (p : Ticks × Ticks) :
    runInstrs (pulseEdges p.1 p.2) s = .next (storePulse p s) :=
  (runInstrs_cons (exec_edgeR_enabled p.1 h) _).trans
    (runInstrs_cons (exec_edgeF_enabled (s := (latchRise p.1 s).setResult .nothing) p.2 h) [])

@[simp] theorem storePulse_cfg (p : Ticks × Ticks) (s : State) : (storePulse p s).cfg = s.cfg := rfl

@[simp] theorem storePulse_enabled (p : Ticks × Ticks) (s : State) : (storePulse p s).enabled = s.enabled := rfl

@[simp] theorem storePulse_writeIndex (p : Ticks × Ticks) (s : State) :
    (storePulse p s).writeIndex = (s.writeIndex + 1) % 2 ^ s.cfg.IW := rfl

theorem storePulse_ring_wf {s : State} (h : s.ring.wf) (p : Ticks × Ticks) : (storePulse p s).ring.wf :=
  Memory.write_wf (Memory.write_wf h _ _) _ _

/-- The slot of `writeIndex` starts with the rise: the store of the end field leaves it alone. -/
theorem slotRead_storePulse_start {s : State} (h : s.ring.wf) (p : Ticks × Ticks) :
    slotRead (storePulse p s) s.writeIndex .start = p.1 :=
  calc slotRead (storePulse p s) s.writeIndex .start
      = slotRead (latchRise p.1 s) s.writeIndex .start :=
        slotRead_slotWrite_other (s := latchRise p.1 s) p.2 (fun h => nomatch h.2)
    _ = p.1 := slotRead_slotWrite_same h _ _ _

/-- The slot of `writeIndex` ends with the fall. -/
theorem slotRead_storePulse_finish {s : State} (h : s.ring.wf) (p : Ticks × Ticks) :
    slotRead (storePulse p s) s.writeIndex .finish = p.2 :=
  slotRead_slotWrite_same (s := latchRise p.1 s) (Memory.write_wf h _ _) _ _ _

/-- A pulse leaves every other slot alone. -/
theorem slotRead_storePulse_other {s : State} {i : Index} (h : slotOf s.cfg i ≠ slotOf s.cfg s.writeIndex)
    (p : Ticks × Ticks) (f : Field) : slotRead (storePulse p s) i f = slotRead s i f :=
  calc slotRead (storePulse p s) i f
      = slotRead (latchRise p.1 s) i f :=
        slotRead_slotWrite_other (s := latchRise p.1 s) p.2 (fun hsame => h hsame.1)
    _ = slotRead s i f := slotRead_slotWrite_other p.1 (fun hsame => h hsame.1)

/-! ### A train of pulses (R86, R88) -/

/-- The slot that the index `i` names holds the two times of the pulse. -/
def HoldsPulse (s : State) (i : Index) (p : Ticks × Ticks) : Prop :=
  slotRead s i .start = p.1 ∧ slotRead s i .finish = p.2

theorem holdsPulse_storePulse_same {s : State} (hring : s.ring.wf) {i : Index}
    (hi : slotOf s.cfg i = slotOf s.cfg s.writeIndex) (p : Ticks × Ticks) : HoldsPulse (storePulse p s) i p :=
  ⟨(slotRead_congr_slot (s := storePulse p s) hi .start).trans (slotRead_storePulse_start hring p),
    (slotRead_congr_slot (s := storePulse p s) hi .finish).trans (slotRead_storePulse_finish hring p)⟩

theorem HoldsPulse.storePulse_other {s : State} {i : Index} {q : Ticks × Ticks} (h : HoldsPulse s i q)
    (hi : slotOf s.cfg i ≠ slotOf s.cfg s.writeIndex) (p : Ticks × Ticks) : HoldsPulse (storePulse p s) i q :=
  ⟨(slotRead_storePulse_other hi p .start).trans h.1, (slotRead_storePulse_other hi p .finish).trans h.2⟩

/-- The run of the pulses `ps` from `s` has come to `t`: their number has been added to `writeIndex`, and the newest
CAPACITY of them are in the slots that follow the old one. -/
structure PulsesStored (ps : List (Ticks × Ticks)) (s t : State) : Prop where
  cfg : t.cfg = s.cfg
  enabled : t.enabled = true
  ring : t.ring.wf
  writeIndex : t.writeIndex = (s.writeIndex + ps.length) % 2 ^ s.cfg.IW
  newest : ∀ (n : Nat) (h : n < ps.length), ps.length ≤ n + s.cfg.capacity → HoldsPulse t (s.writeIndex + n) ps[n]

theorem pulsesStored_nil {s : State} (hs : s.WF) (he : s.enabled = true) : PulsesStored [] s s :=
  ⟨rfl, he, hs.ring, (Nat.mod_eq_of_lt hs.writeIndex).symm, nofun⟩

/-- One more pulse goes to the next slot, which is none of those of the CAPACITY - 1 pulses before it. -/
theorem PulsesStored.storePulse {ps : List (Ticks × Ticks)} {s t : State} (h : PulsesStored ps s t)
    (hK : s.cfg.K ≤ s.cfg.IW) (p : Ticks × Ticks) : PulsesStored (ps ++ [p]) s (storePulse p t) := by
  have hslot : slotOf t.cfg t.writeIndex = slotOf t.cfg (s.writeIndex + ps.length) := by
    rw [h.cfg, h.writeIndex, slotOf_mod _ hK]
  refine ⟨(storePulse_cfg p t).trans h.cfg, (storePulse_enabled p t).trans h.enabled, storePulse_ring_wf h.ring p,
    ?_, fun n hn hnew => ?_⟩
  · rw [storePulse_writeIndex, h.cfg, h.writeIndex, Nat.mod_add_mod, List.length_append, Nat.add_assoc]
    rfl
  · rw [List.length_append, List.length_singleton] at hn hnew
    rcases Nat.lt_succ_iff_lt_or_eq.1 hn with hold | rfl
    · rw [List.getElem_append_left hold]
      refine (h.newest n hold (by omega)).storePulse_other ?_ p
      rw [hslot, h.cfg]
      exact slotOf_add_ne s.cfg s.writeIndex hold hnew
    · rw [List.getElem_concat_length rfl]
      exact holdsPulse_storePulse_same h.ring hslot.symm p

/-- Induction on the train from its end: the last pulse is stored after all the others. -/
theorem runInstrs_pulseTrain {s : State} (hs : s.WF) (he : s.enabled = true) (ps : List (Ticks × Ticks)) :
    ∃ t, runInstrs (pulseTrain ps) s = .next t ∧ PulsesStored ps s t := by
  obtain ⟨-, -, hK, -⟩ := hs.cfg
  induction ps using List.reverseRecOn with
  | nil => exact ⟨s, rfl, pulsesStored_nil hs he⟩
  | append_singleton ps p ih =>
    obtain ⟨t, hrun, hstored⟩ := ih
    refine ⟨storePulse p t, ?_, hstored.storePulse hK p⟩
    rw [pulseTrain, List.flatMap_append, List.flatMap_singleton]
    exact (runInstrs_append hrun _).trans (runInstrs_pulseEdges hstored.enabled p)

/-- Settles O19, by the invariant `PulsesStored` that every pulse of the train keeps. -/
theorem alternatingPulsesAreStoredInOrder : Obligations.AlternatingPulsesAreStoredInOrder := by
  intro ps s hs he
  obtain ⟨t, hrun, hstored⟩ := runInstrs_pulseTrain hs he ps
  exact ⟨t, hrun, hstored.writeIndex, hstored.newest⟩

end Sys2Proof.Machine

/-! PROOFS. The statements of 41_window_classifier.md: the linear scan answers the least matching window (R91 to R93), a
well-formed table leaves it no choice (R95), and the default table cuts the durations as R97 says. -/

namespace Sys2Proof.Machine

/-! ### The linear scan (R92) -/

/-- The scan visits the codes in increasing order. -/
theorem syncCodes_pairwise_toNat_lt : syncCodes.Pairwise (fun j k => j.toNat < k.toNat) := by decide

/-- No code below the one found matches: what precedes it in the scan failed, what follows it is greater. -/
theorem not_matches_of_toNat_lt {c : Config} {d : Ticks} {k j : SyncCode} (h : firstMatch c d = some k)
    (hj : j.toNat < k.toNat) : ¬ c.Matches j d := by
  obtain ⟨-, before, after, hsplit, hfail⟩ := List.find?_eq_some_iff_append.1 h
  have hmem := mem_syncCodes j
  have hsorted := syncCodes_pairwise_toNat_lt
  rw [hsplit] at hmem hsorted
  obtain ⟨-, htail, -⟩ := List.pairwise_append.1 hsorted
  rcases List.mem_append.1 hmem with hbefore | hrest
  · simpa only [Bool.not_eq_true', decide_eq_false_iff_not] using hfail j hbefore
  · rcases List.mem_cons.1 hrest with rfl | hafter
    · exact absurd hj (lt_irrefl _)
    · exact absurd hj (lt_asymm (List.rel_of_pairwise_cons htail hafter))

/-- The scan finds exactly the least code whose window matches. -/
theorem firstMatch_some {c : Config} {d : Ticks} {k : SyncCode} :
    firstMatch c d = some k ↔ c.Matches k d ∧ ∀ j : SyncCode, j.toNat < k.toNat → ¬ c.Matches j d := by
  refine ⟨fun h => ⟨firstMatch_matches h, fun j => not_matches_of_toNat_lt h⟩, fun ⟨hk, hleast⟩ => ?_⟩
  rcases hm : firstMatch c d with _ | j
  · exact absurd hk (firstMatch_none.1 hm k)
  · rcases Nat.lt_trichotomy j.toNat k.toNat with hlt | heq | hgt
    · exact absurd (firstMatch_matches hm) (hleast j hlt)
    · rw [BitVec.eq_of_toNat_eq heq]
    · exact absurd hk (not_matches_of_toNat_lt hm hgt)

/-! ### The three answers (R90, R93) -/

theorem classify_eq_sync_iff {c : Config} {d : Ticks} {k : SyncCode} :
    classify c d = .sync k ↔ firstMatch c d = some k := by
  rcases classify_cases c d with ⟨j, hm, h⟩ | ⟨hm, -, h⟩ | ⟨hm, -, h⟩ <;> simp [hm, h]

theorem classify_eq_beam_iff {c : Config} {d : Ticks} :
    classify c d = .beam ↔ firstMatch c d = none ∧ d < c.beamCeiling := by
  rcases classify_cases c d with ⟨j, hm, h⟩ | ⟨hm, hd, h⟩ | ⟨hm, hd, h⟩
  · simp [hm, h]
  · simp [hm, h, hd]
  · simp [hm, h, hd]

theorem classify_eq_unclassified_iff {c : Config} {d : Ticks} :
    classify c d = .unclassified ↔ firstMatch c d = none ∧ c.beamCeiling ≤ d := by
  rcases classify_cases c d with ⟨j, hm, h⟩ | ⟨hm, hd, h⟩ | ⟨hm, hd, h⟩
  · simp [hm, h]
  · simp [hm, h, hd]
  · simp [hm, h, hd]

/-- Settles O50: each answer fixes what the scan found, and the scan finds the least match. -/
theorem classifierAnswersTheLeastWindow : Obligations.ClassifierAnswersTheLeastWindow := fun _ _ =>
  ⟨fun _ => classify_eq_sync_iff.trans firstMatch_some, classify_eq_beam_iff.trans (and_congr_left' firstMatch_none),
    classify_eq_unclassified_iff.trans (and_congr_left' firstMatch_none)⟩

/-! ### Well-formed tables (R95) -/

/-- R95 (b): the window that matches is the least because it is the only one. -/
theorem classify_of_matches {c : Config} (hc : c.WF) {k : SyncCode} {d : Ticks} (hk : c.Matches k d) :
    classify c d = .sync k :=
  classify_eq_sync_iff.2 <| firstMatch_some.2
    ⟨hk, fun _ hjk hj => hjk.ne (congrArg BitVec.toNat (matches_unique hc hj hk))⟩

/-- R95 (c): no window reaches below the ceiling. -/
theorem classify_of_lt_beamCeiling {c : Config} (hc : c.WF) {d : Ticks} (hd : d < c.beamCeiling) :
    classify c d = .beam :=
  classify_eq_beam_iff.2 ⟨firstMatch_none.2 fun _ hk => not_lt.2 (beamCeiling_le_of_matches hc hk) hd, hd⟩

/-- Settles O51: R95 (b) leaves a matching window alone, R95 (c) keeps the windows off the beam range. -/
theorem wellFormedTablesMatchOnce : Obligations.WellFormedTablesMatchOnce := fun _ hc =>
  ⟨fun _ _ hk => classify_of_matches hc hk, fun _ hd => classify_of_lt_beamCeiling hc hd⟩

/-! ### The default table (R96, R97) -/

theorem default_wf : Config.default.WF := scaledConfigurationsAreWellFormed 1 le_rfl (by decide)

/-- The lower bounds of the default table follow each other at a third of 31250, rounded down (R96). -/
theorem default_lowOf (k : SyncCode) : Config.default.lowOf k = 57500 + k.toNat * 31250 / 3 := by
  rw [Config.default, lowOf_ofUnit_eq_defaultLow, defaultLow, windowCentre]
  omega

/-- The upper bounds of the default table are 10000 above the lower ones (R96). -/
theorem default_highOf (k : SyncCode) : Config.default.highOf k = 67500 + k.toNat * 31250 / 3 := by
  rw [Config.default, highOf_ofUnit_eq_defaultHigh, defaultHigh, windowCentre]
  omega

theorem default_matches_iff {k : SyncCode} {d : Nat} :
    Config.default.Matches k d ↔ 57500 + k.toNat * 31250 / 3 < d ∧ d < 67500 + k.toNat * 31250 / 3 := by
  rw [Config.Matches, default_lowOf, default_highOf]

theorem default_classify_unclassified {d : Nat} (hceiling : 50000 ≤ d)
    (hgap : ∀ n < 8, d ≤ 57500 + n * 31250 / 3 ∨ 67500 + n * 31250 / 3 ≤ d) :
    classify Config.default d = .unclassified := by
  refine classify_eq_unclassified_iff.2 ⟨firstMatch_none.2 fun k hk => ?_, hceiling⟩
  obtain ⟨hlow, hhigh⟩ := default_matches_iff.1 hk
  have := hgap k.toNat k.isLt
  omega

/-- Two rows of R97 for a duration above the windows before `n`: the gap below window `n` and the window; what is above
is left to the rows that follow. -/
theorem default_classify_rows {k : SyncCode} {n d : Nat} {above : PulseClass} (hn : k.toNat = n)
    (hceiling : 50000 ≤ d) (hbelow : ∀ m < n, 67500 + m * 31250 / 3 ≤ d)
    (habove : 67500 + n * 31250 / 3 ≤ d → classify Config.default d = above) :
    classify Config.default d =
      if d ≤ 57500 + n * 31250 / 3 then .unclassified else if d ≤ 67499 + n * 31250 / 3 then .sync k else above := by
  split
  · refine default_classify_unclassified hceiling fun m _ => ?_
    have := hbelow m
    omega
  · split
    · exact classify_of_matches default_wf (default_matches_iff.2 (by omega))
    · exact habove (by omega)

/-- Settles O52: the beam range, then for each window the gap below it and the window, then the gap above them all. -/
theorem defaultTablePartitionsTheDurations : Obligations.DefaultTablePartitionsTheDurations := by
  intro (d : Nat) _
  rcases Nat.lt_or_ge d 50000 with hbeam | hceiling
  · rw [if_pos (Nat.le_of_lt_succ hbeam)]
    exact classify_of_lt_beamCeiling default_wf hbeam
  · rw [if_neg (Nat.not_le.2 hceiling)]
    refine default_classify_rows (n := 0) rfl hceiling nofun fun h0 => ?_
    refine default_classify_rows (n := 1) rfl hceiling (by omega) fun h1 => ?_
    refine default_classify_rows (n := 2) rfl hceiling (by omega) fun h2 => ?_
    refine default_classify_rows (n := 3) rfl hceiling (by omega) fun h3 => ?_
    refine default_classify_rows (n := 4) rfl hceiling (by omega) fun h4 => ?_
    refine default_classify_rows (n := 5) rfl hceiling (by omega) fun h5 => ?_
    refine default_classify_rows (n := 6) rfl hceiling (by omega) fun h6 => ?_
    refine default_classify_rows (n := 7) rfl hceiling (by omega) fun h7 => ?_
    exact default_classify_unclassified hceiling (by omega)

end Sys2Proof.Machine

/-! PROOFS. The statements of 42_pulse_consumer.md: BEGIN, STEP and the phases (R101 to R112), the whole tick of a POLL
(R113 to R118), and the edges that fall inside a tick (R117). -/

namespace Sys2Proof.Machine

/-! ### BEGIN and STEP (R101, R102) -/

theorem exec_beginTick_idle {s : State} (hs : s.cphase = .idle) : exec .beginTick s = .next (beginOp s) :=
  whenIdle_idle hs

/-- Settles O22: BEGIN is one update, guarded by the sequencer. -/
theorem beginStartsATick : Obligations.BeginStartsATick :=
  ⟨fun c => decode_word c 8 (Nat.two_pow_pos _), fun _ hs => exec_beginTick_idle hs, fun _ hs => whenIdle_busy hs⟩

/-- The row of a phase runs that phase, whatever `cphase` holds (log 7). -/
theorem exec_phaseRow {p : Phase} (hp : p ≠ .idle) (s : State) : exec (phaseRow p) s = .next (runPhase p s) := by
  cases p with
  | idle => exact absurd rfl hp
  | p1 | p2 | p3 | p4 | p5 | p6 => rfl

/-- P1 with no data ends the tick (R103). -/
theorem phaseCheck_of_eq {s : State} (h : s.readIndex = s.writeIndex) : phaseCheck s = endTick s false := if_pos h

/-- P1 with data goes on to P2 (R103). -/
theorem phaseCheck_of_ne {s : State} (h : s.readIndex ≠ s.writeIndex) : phaseCheck s = toPhase s .p2 := if_neg h

/-- STEP and the row of the phase that `cphase` names answer the same state. -/
theorem exec_stepTick_and_phaseRow {s : State} {p : Phase} (hs : s.cphase = p) (hp : p ≠ .idle) :
    exec .stepTick s = .next (runPhase p s) ∧ exec (phaseRow p) s = .next (runPhase p s) :=
  ⟨exec_stepTick hs hp, exec_phaseRow hp s⟩

/-- Settles O23: STEP runs the phase's row; only the successor of P1 depends on the state. -/
theorem stepRunsThePhaseOfTheSequencer : Obligations.StepRunsThePhaseOfTheSequencer := by
  refine ⟨fun c => decode_word c 9 (Nat.two_pow_pos _), fun s => ⟨rfl, exec_stepTick_idle, fun hs => ?_,
    fun hs => ?_, fun hs => ?_, fun hs => ?_, fun hs => ?_, fun hs => ?_⟩⟩
  all_goals
    obtain ⟨hstep, hrow⟩ := exec_stepTick_and_phaseRow hs nofun
    refine ⟨_, hstep, hrow, ?_⟩
  case refine_1 =>
    rw [runPhase]
    exact ⟨fun heq => by rw [phaseCheck_of_eq heq]; exact ⟨rfl, rfl⟩,
      fun hne => by rw [phaseCheck_of_ne hne]; exact ⟨rfl, rfl⟩⟩
  all_goals exact ⟨rfl, rfl⟩

/-! ### The phases (R103 to R112) -/

/-- Settles O24, by the two outcomes of the comparison. -/
theorem checkPhaseComparesTheIndices : Obligations.CheckPhaseComparesTheIndices :=
  ⟨fun s h => congrArg _ ((phaseCheck_of_eq h).trans (endTick_eq s false)),
    fun s h => congrArg _ ((phaseCheck_of_ne h).trans (toPhase_eq s .p2))⟩

/-- Settles O25: `decMod` is the remainder of the integer difference. -/
theorem seekPhaseTakesTheNewestRecord : Obligations.SeekPhaseTakesTheNewestRecord :=
  fun s => ⟨phaseSeek s, rfl, subMod_eq_emod s.cfg.IW s.writeIndex 1, phaseSeek_eq s⟩

/-- Settles O28: P6 is one increment and the end of the tick. -/
theorem advancePhaseEndsTheTick : Obligations.AdvancePhaseEndsTheTick := fun s =>
  congrArg Host.Outcome.next (phaseAdvance_eq s)

/-! ### Phase P5 by the class of the latched record (R107 to R111) -/

/-- P5 is the arm of the latched class, between the clearing of `c_ret` and the move to P6 (R107). -/
theorem phaseDecode_of_class {s t : State} {cls : PulseClass} (hcls : latchedClass s = cls)
    (harm : classArm cls (s.setRet false) = t) : phaseDecode s = toPhase t .p6 := by
  subst hcls harm
  exact phaseDecode_eq s

/-- P5 on a skipped sync (R109). -/
theorem phaseDecode_of_skip {s : State} {k : SyncCode} (hk : latchedClass s = .sync k) (hskip : k.getLsbD 2 = true) :
    phaseDecode s = { s with cRet := false, cphase := .p6, result := .nothing } :=
  phaseDecode_of_class hk (syncArm_of_skip hskip _)

/-- P5 on a sync that is not skipped (R108). -/
theorem phaseDecode_of_not_skip {s : State} {k : SyncCode} (hk : latchedClass s = .sync k)
    (hskip : k.getLsbD 2 = false) :
    phaseDecode s = { s with
      cRet := false, cphase := .p6, result := .nothing
      syncPulseStart := s.cStart, activeAxis := if k.getLsbD 0 then .creep else .sweep } :=
  phaseDecode_of_class hk (syncArm_of_not_skip hskip (s.setRet false))

/-- The latched record is a beam inside the window of the origin (R110). -/
structure BeamInWindow (s : State) : Prop where
  beam : latchedClass s = .beam
  deadZone_le : s.cfg.deadZone ≤ relativeStart s
  le_windowMax : relativeStart s ≤ s.cfg.windowMax

/-- P5 on a beam in the window stores the angle of the active axis and reports it (R110). -/
theorem phaseDecode_of_beamInWindow {s : State} (h : BeamInWindow s) :
    phaseDecode s = toPhase
      ((s.setAngle s.activeAxis (angleOf s.cfg (relativeStart s - s.cfg.deadZone))).setRet true) .p6 :=
  phaseDecode_of_class h.beam (beamArm_inside (s := s.setRet false) h.deadZone_le h.le_windowMax)

/-- Settles O27: `d` and `rel` are the duration and the position that P5 computes; each class has its own lemma. -/
theorem decodePhaseTakesTheArmOfTheClass : Obligations.DecodePhaseTakesTheArmOfTheClass := by
  intro s d rel hd hrel
  obtain rfl : d = latchedDuration s := eq_subMod_of_eq_emod hd
  obtain rfl : rel = relativeStart s := eq_subMod_of_eq_emod hrel
  refine ⟨fun k hk hskip => congrArg _ (phaseDecode_of_not_skip hk hskip),
    fun k hk hskip => congrArg _ (phaseDecode_of_skip hk hskip),
    fun hbeam hout => congrArg _ (phaseDecode_of_class hbeam (beamArm_outside (s := s.setRet false) hout)),
    fun hbeam hlow hhigh => ?_, fun hnone => congrArg _ (phaseDecode_of_class hnone rfl)⟩
  have hstore : exec .p5Decode s = .next _ :=
    congrArg Host.Outcome.next (phaseDecode_of_beamInWindow ⟨hbeam, hlow, hhigh⟩)
  exact ⟨_, hstore, State.angle_setAngle_same s _ _, fun a ha => State.angle_setAngle_other s _ ha, rfl⟩

/-! ### What the phases after P2 read of the shared state (R105, R106) -/

/-- The state with other values in what an edge can write: the ring, `writeIndex` and the result port. -/
def State.setShared (s : State) (m : Memory) (w : Index) (r : Result) : State :=
  { s with ring := m, writeIndex := w, result := r }

theorem classArm_setResult (cls : PulseClass) (s : State) (r : Result) :
    classArm cls (s.setResult r) = (classArm cls s).setResult r := by
  cases cls with
  | unclassified => rfl
  | sync k =>
    rw [classArm, classArm, syncArm, syncArm, apply_ite (State.setResult · r)]
    rfl
  | beam =>
    rw [classArm, classArm, beamArm, beamArm, apply_ite (State.setResult · r)]
    rfl

theorem classArm_setShared (cls : PulseClass) (s : State) (m : Memory) (w : Index) (r : Result) :
    classArm cls (s.setShared m w r) = (classArm cls s).setShared m w r :=
  (classArm_setResult cls { s with ring := m, writeIndex := w } r).trans
    (congrArg (State.setResult · r) (classArm_shared cls s m w))

theorem phaseDecode_setShared (s : State) (m : Memory) (w : Index) (r : Result) :
    phaseDecode (s.setShared m w r) = (phaseDecode s).setShared m w .nothing :=
  congrArg (toPhase · .p6) (classArm_setShared (latchedClass s) (s.setRet false) m w r)

/-- The phase reads no shared state, or only fields of the slot at `readIndex`, which hold in the ring `m` what they
hold in the state's own. -/
inductive ReadsAlike (s : State) (m : Memory) : Phase → Prop
  | loadStart (h : m.read (slotAddr s.cfg s.readIndex .start) = slotRead s s.readIndex .start) : ReadsAlike s m .p3
  | loadEnd (h : m.read (slotAddr s.cfg s.readIndex .finish) = slotRead s s.readIndex .finish) : ReadsAlike s m .p4
  | decode : ReadsAlike s m .p5
  | advance : ReadsAlike s m .p6

theorem ReadsAlike.ne_idle {s : State} {m : Memory} {p : Phase} (h : ReadsAlike s m p) : p ≠ .idle := by
  cases h <;> exact nofun

/-- A phase that reads alike does the same and leaves the shared state as it finds it. -/
theorem runPhase_setShared {s : State} {m : Memory} {p : Phase} (h : ReadsAlike s m p) (w : Index) (r : Result) :
    runPhase p (s.setShared m w r) = (runPhase p s).setShared m w (runPhase p s).result := by
  cases h with
  | loadStart h =>
    rw [runPhase, phaseLoadStart_eq, phaseLoadStart_eq, ← h]
    rfl
  | loadEnd h =>
    rw [runPhase, phaseLoadEnd_eq, phaseLoadEnd_eq, ← h]
    rfl
  | decode => exact phaseDecode_setShared s m w r
  | advance => rfl

/-- Settles O26: P3 and P4 are one SlotRead each; P5 and P6 by `runPhase_setShared`. -/
theorem loadPhasesReadTheChosenSlot : Obligations.LoadPhasesReadTheChosenSlot := by
  refine ⟨fun s => ⟨congrArg Host.Outcome.next (phaseLoadStart_eq s), congrArg Host.Outcome.next (phaseLoadEnd_eq s)⟩,
    fun s m w hs => ?_⟩
  obtain ⟨p, hp, halike⟩ : ∃ p, s.cphase = p ∧ ReadsAlike s m p :=
    hs.elim (fun h => ⟨.p5, h, .decode⟩) (fun h => ⟨.p6, h, .advance⟩)
  exact ⟨runPhase p s, exec_stepTick hp halike.ne_idle,
    (exec_stepTick (s := s.setShared m w s.result) hp halike.ne_idle).trans
      (congrArg _ (runPhase_setShared halike w s.result))⟩

/-! ### POLL as BEGIN and STEPs (R113) -/

theorem exec_poll_idle {s : State} (hs : s.cphase = .idle) : exec .poll s = .next (wholeTick s) := whenIdle_idle hs

/-- BEGIN and one more STEP. -/
theorem runInstrs_tick_succ {n : Nat} {s t : State} {p : Phase} (h : runInstrs (tick n) s = .next t)
    (ht : t.cphase = p) (hp : p ≠ .idle) : runInstrs (tick (n + 1)) s = .next (runPhase p t) := by
  have hsplit : tick (n + 1) = tick n ++ [.stepTick] := by
    rw [tick, tick, steps, steps, List.replicate_succ', List.cons_append]
  rw [hsplit]
  exact (runInstrs_append h _).trans (runInstrs_cons (exec_stepTick ht hp) [])

theorem runInstrs_tick_zero {s : State} (hs : s.cphase = .idle) : runInstrs (tick 0) s = .next (beginOp s) :=
  runInstrs_cons (exec_beginTick_idle hs) []

/-- Settles O31, by following `cphase` through the STEPs. -/
theorem pollIsBeginAndStepsUntilIdle : Obligations.PollIsBeginAndStepsUntilIdle := by
  refine ⟨fun s hs hno => ?_, fun s hs hdata => ?_, fun s hs => whenIdle_busy hs⟩
  · have h1 := runInstrs_tick_succ (runInstrs_tick_zero hs) (p := .p1) rfl nofun
    obtain ⟨hupdating, hphase⟩ := wholeTick_ended s
    refine ⟨wholeTick s, exec_poll_idle hs, h1.trans (congrArg _ ?_), hphase, hupdating⟩
    rw [wholeTick_of_eq hno]
    exact phaseCheck_of_eq (s := beginOp s) hno
  · have h0 := runInstrs_tick_zero hs
    have h1 : runInstrs (tick 1) s = .next (toPhase (beginOp s) .p2) :=
      (runInstrs_tick_succ h0 (p := .p1) rfl nofun).trans (congrArg _ (phaseCheck_of_ne (s := beginOp s) hdata))
    have h2 := runInstrs_tick_succ h1 (p := .p2) rfl nofun
    have h3 := runInstrs_tick_succ h2 (p := .p3) rfl nofun
    have h4 : runInstrs (tick 4) s = .next (tickLatched s) := runInstrs_tick_succ h3 (p := .p4) rfl nofun
    have h5 := runInstrs_tick_succ h4 (p := .p5) rfl nofun
    have h6 := runInstrs_tick_succ h5 (p := .p6) rfl nofun
    obtain ⟨hupdating, hphase⟩ := wholeTick_ended s
    refine ⟨wholeTick s, exec_poll_idle hs, h6.trans (congrArg _ (wholeTick_of_ne hdata).symm), hphase, hupdating,
      fun n hn => ?_⟩
    interval_cases n
    · exact ⟨_, h0, nofun⟩
    · exact ⟨_, h1, nofun⟩
    · exact ⟨_, h2, nofun⟩
    · exact ⟨_, h3, nofun⟩
    · exact ⟨_, h4, nofun⟩
    · exact ⟨_, h5, nofun⟩

/-! ### The record a POLL decodes (R104, R113, R118) -/

/-- The index of the newest record (R104). -/
def newestIndex (s : State) : Index := decMod s.cfg.IW s.writeIndex

/-- The class of the newest record (R107). -/
def newestClass (s : State) : PulseClass :=
  classify s.cfg (subMod s.cfg.W (slotRead s (newestIndex s) .finish) (slotRead s (newestIndex s) .start))

/-- The position of the newest record after the origin (R110). -/
def newestPosition (s : State) : Ticks := subMod s.cfg.W (slotRead s (newestIndex s) .start) s.syncPulseStart

/-- A whole tick that finds data latches the newest record. -/
theorem tickLatched_eq_newest (s : State) :
    tickLatched s = { s with
      readIndex := newestIndex s, cStart := slotRead s (newestIndex s) .start
      cEnd := slotRead s (newestIndex s) .finish, updating := true, cphase := .p5, result := .nothing } := by
  rw [tickLatched, beginOp_eq, toPhase_eq, phaseSeek_eq, phaseLoadStart_eq, phaseLoadEnd_eq]
  rfl

theorem tickLatched_cfg (s : State) : (tickLatched s).cfg = s.cfg := (tickLatched_keepsShared s).cfg

theorem tickLatched_readIndex (s : State) : (tickLatched s).readIndex = newestIndex s := by
  rw [tickLatched_eq_newest]

theorem latchedClass_tickLatched (s : State) : latchedClass (tickLatched s) = newestClass s := by
  rw [tickLatched_eq_newest]
  rfl

theorem relativeStart_tickLatched (s : State) : relativeStart (tickLatched s) = newestPosition s := by
  rw [tickLatched_eq_newest]
  rfl

/-- What P5 leaves as it is, whatever the class. -/
theorem phaseDecode_frame (s : State) :
    (phaseDecode s).readIndex = s.readIndex ∧ (phaseDecode s).cStart = s.cStart ∧ (phaseDecode s).cEnd = s.cEnd := by
  obtain ⟨-, -, -, hread, -, -, -, hstart, hend, -⟩ := classArm_frame (latchedClass s) (s.setRet false)
  exact ⟨hread, hstart, hend⟩

theorem phaseAdvance_readIndex (s : State) : (phaseAdvance s).readIndex = incMod s.cfg.IW s.readIndex := rfl

theorem phaseAdvance_result (s : State) : (phaseAdvance s).result = .bool s.cRet := rfl

theorem phaseAdvance_cStart (s : State) : (phaseAdvance s).cStart = s.cStart := rfl

theorem phaseAdvance_cEnd (s : State) : (phaseAdvance s).cEnd = s.cEnd := rfl

theorem phaseAdvance_angle (s : State) (a : Axis) : (phaseAdvance s).angle a = s.angle a :=
  congrFun (phaseAdvance_keepsConverter s).angle a

/-- A whole tick that finds data consumes everything up to the newest record (R104, R112). -/
theorem wholeTick_readIndex_of_ne {s : State} (hdata : s.readIndex ≠ s.writeIndex)
    (hw : s.writeIndex < 2 ^ s.cfg.IW) : (wholeTick s).readIndex = s.writeIndex := by
  obtain ⟨hread, -, -⟩ := phaseDecode_frame (tickLatched s)
  rw [wholeTick_of_ne hdata, phaseAdvance_readIndex, (phaseDecode_keepsShared _).cfg, tickLatched_cfg, hread,
    tickLatched_readIndex]
  exact incMod_decMod hw

/-! ### What a POLL reports (R116) -/

/-- P5 on a beam in the window reports the angle it stores, and leaves the origin and the axis (R110, R116). -/
theorem phaseDecode_stores {s : State} (h : BeamInWindow s) :
    (phaseDecode s).cRet = true ∧
    (phaseDecode s).angle s.activeAxis = angleOf s.cfg (relativeStart s - s.cfg.deadZone) ∧
    (∀ a, a ≠ s.activeAxis → (phaseDecode s).angle a = s.angle a) ∧
    (phaseDecode s).activeAxis = s.activeAxis ∧ (phaseDecode s).syncPulseStart = s.syncPulseStart := by
  rw [phaseDecode_of_beamInWindow h]
  exact ⟨rfl, State.angle_setAngle_same s _ _, fun a ha => State.angle_setAngle_other s _ ha, rfl, rfl⟩

/-- P5 on anything else reports nothing and leaves both angles (R108, R109, R111, R116). -/
theorem phaseDecode_keepsAngles {s : State} (h : ¬ BeamInWindow s) :
    (phaseDecode s).cRet = false ∧ ∀ a, (phaseDecode s).angle a = s.angle a := by
  rcases classArm_cases (latchedClass s) (s.setRet false) with harm | ⟨k, -, -, harm⟩ | ⟨hbeam, hlow, hhigh, -⟩
  · rw [phaseDecode_of_class rfl harm]
    exact ⟨rfl, fun _ => rfl⟩
  · rw [phaseDecode_of_class rfl harm]
    exact ⟨rfl, fun _ => rfl⟩
  · exact absurd ⟨hbeam, hlow, hhigh⟩ h

/-- The newest record is a beam inside the window of the origin (R110). -/
theorem beamInWindow_tickLatched_iff (s : State) :
    BeamInWindow (tickLatched s) ↔
      newestClass s = .beam ∧ s.cfg.deadZone ≤ newestPosition s ∧ newestPosition s ≤ s.cfg.windowMax := by
  rw [← latchedClass_tickLatched, ← relativeStart_tickLatched, ← tickLatched_cfg s]
  exact ⟨fun ⟨hbeam, hlow, hhigh⟩ => ⟨hbeam, hlow, hhigh⟩, fun ⟨hbeam, hlow, hhigh⟩ => ⟨hbeam, hlow, hhigh⟩⟩

/-- Settles O33: with data the result and the angles are those of P5 on the newest record; without, P1 returns 0. -/
theorem pollReportsExactlyTheStoredAngle : Obligations.PollReportsExactlyTheStoredAngle := by
  intro s hs
  refine ⟨wholeTick s, exec_poll_idle hs, ?_⟩
  intro newest start rel stored
  by_cases hdata : s.readIndex = s.writeIndex
  · have hkept := (beginOp_keepsConverter s).trans (endTick_keepsConverter _ false)
    rw [wholeTick_of_eq hdata]
    exact ⟨fun ⟨hne, _⟩ => absurd hdata hne, fun _ => ⟨rfl, congrFun hkept.angle⟩⟩
  · obtain ⟨hangle, haxis, -⟩ := tickLatched_keepsConverter s
    have hiff : stored ↔ BeamInWindow (tickLatched s) :=
      ⟨fun ⟨_, h⟩ => (beamInWindow_tickLatched_iff s).2 h, fun h => ⟨hdata, (beamInWindow_tickLatched_iff s).1 h⟩⟩
    rw [hiff, wholeTick_of_ne hdata, phaseAdvance_result]
    simp only [phaseAdvance_angle]
    refine ⟨fun hin => ?_, fun hout => ?_⟩
    · obtain ⟨hret, hstored, hother, -, -⟩ := phaseDecode_stores hin
      rw [haxis, tickLatched_cfg, relativeStart_tickLatched] at hstored
      rw [haxis, hangle] at hother
      exact ⟨congrArg _ hret, hstored, hother⟩
    · obtain ⟨hret, hkept⟩ := phaseDecode_keepsAngles hout
      exact ⟨congrArg _ hret, hangle ▸ hkept⟩

/-- P5 on a skipped sync reports nothing and leaves the converter's registers (R109). -/
theorem phaseDecode_keepsConverter_of_skip {s : State} {k : SyncCode} (hk : latchedClass s = .sync k)
    (hskip : k.getLsbD 2 = true) : (phaseDecode s).cRet = false ∧ KeepsConverter s (phaseDecode s) := by
  rw [phaseDecode_of_skip hk hskip]
  exact ⟨rfl, rfl, rfl, rfl⟩

/-- Settles O34: P5 does nothing on a skipped sync, and P6 moves on from the newest record. -/
theorem skippedSyncAltersNoDecoderState : Obligations.SkippedSyncAltersNoDecoderState := by
  intro s k hs hidle hdata hk hskip
  refine ⟨wholeTick s, exec_poll_idle hidle, ?_⟩
  have hread := wholeTick_readIndex_of_ne hdata hs.writeIndex
  obtain ⟨hret, hdecode⟩ := phaseDecode_keepsConverter_of_skip ((latchedClass_tickLatched s).trans hk) hskip
  rw [wholeTick_of_ne hdata] at hread ⊢
  obtain ⟨hangle, haxis, horigin⟩ :=
    ((tickLatched_keepsConverter s).trans hdecode).trans (phaseAdvance_keepsConverter _)
  exact ⟨congrArg Result.bool hret, horigin, haxis, congrFun hangle, hread⟩

/-! ### A pulse and then a POLL (R86, R104, R113) -/

/-- What a pulse and a POLL after it need of the state, between ticks. -/
structure ReadyForPulse (s : State) : Prop where
  indexWidth : 1 ≤ s.cfg.IW
  ring : s.ring.wf
  writeIndex : s.writeIndex < 2 ^ s.cfg.IW
  enabled : s.enabled = true
  idle : s.cphase = .idle
  unread : s.readIndex ≠ incMod s.cfg.IW s.writeIndex

theorem State.WF.readyForPulse {s : State} (hs : s.WF) (he : s.enabled = true) (hidle : s.cphase = .idle)
    (hunread : s.readIndex ≠ incMod s.cfg.IW s.writeIndex) : ReadyForPulse s := by
  obtain ⟨-, hK, hKIW, -⟩ := hs.cfg
  exact ⟨le_trans hK hKIW, hs.ring, hs.writeIndex, he, hidle, hunread⟩

/-- With two indices or more, an index is not its own successor. -/
theorem incMod_ne_self {w i : Nat} (hw : 1 ≤ w) (hi : i < 2 ^ w) : incMod w i ≠ i := by
  have h2 : 2 ^ 1 ≤ 2 ^ w := Nat.pow_le_pow_right (by decide) hw
  rw [incMod]
  rcases Nat.eq_or_lt_of_le (Nat.succ_le_of_lt hi) with hlast | hlt
  · rw [show i + 1 = 2 ^ w from hlast, Nat.mod_self]
    omega
  · rw [Nat.mod_eq_of_lt hlt]
    omega

/-- The pulse `p` stored, and then latched by a tick. -/
def pulseLatched (p : Ticks × Ticks) (s : State) : State :=
  { storePulse p s with
    readIndex := s.writeIndex, cStart := p.1, cEnd := p.2, updating := true, cphase := .p5, result := .nothing }

/-- The state a pulse and a POLL after it lead to. -/
def pulseAndPoll (p : Ticks × Ticks) (s : State) : State := wholeTick (storePulse p s)

theorem pulseAndPoll_keepsShared (p : Ticks × Ticks) (s : State) : KeepsShared (storePulse p s) (pulseAndPoll p s) :=
  wholeTick_keepsShared _

theorem pulseAndPoll_cfg (p : Ticks × Ticks) (s : State) : (pulseAndPoll p s).cfg = s.cfg :=
  (pulseAndPoll_keepsShared p s).cfg

theorem pulseAndPoll_writeIndex (p : Ticks × Ticks) (s : State) :
    (pulseAndPoll p s).writeIndex = incMod s.cfg.IW s.writeIndex :=
  (pulseAndPoll_keepsShared p s).writeIndex

theorem pulseLatched_keepsConverter (p : Ticks × Ticks) (s : State) : KeepsConverter s (pulseLatched p s) :=
  ⟨rfl, rfl, rfl⟩

section
variable {s : State} (h : ReadyForPulse s) (p : Ticks × Ticks)
include h

theorem ReadyForPulse.runInstrs_pulse_poll :
    runInstrs (pulseEdges p.1 p.2 ++ [.poll]) s = .next (pulseAndPoll p s) :=
  (runInstrs_append (runInstrs_pulseEdges h.enabled p) _).trans
    (runInstrs_cons (exec_poll_idle (s := storePulse p s) h.idle) [])

/-- The newest record after a pulse is that pulse. -/
theorem ReadyForPulse.tickLatched_storePulse : tickLatched (storePulse p s) = pulseLatched p s := by
  have hnewest : newestIndex (storePulse p s) = s.writeIndex := decMod_incMod h.indexWidth h.writeIndex
  rw [tickLatched_eq_newest, hnewest, slotRead_storePulse_start h.ring, slotRead_storePulse_finish h.ring]
  rfl

/-- The POLL finds data and decodes the pulse. -/
theorem ReadyForPulse.pulseAndPoll_eq :
    pulseAndPoll p s = phaseAdvance (phaseDecode (pulseLatched p s)) := by
  rw [pulseAndPoll, wholeTick_of_ne (s := storePulse p s) h.unread, h.tickLatched_storePulse]

/-- The pulse has been consumed. -/
theorem ReadyForPulse.pulseAndPoll_readIndex : (pulseAndPoll p s).readIndex = (pulseAndPoll p s).writeIndex := by
  rw [pulseAndPoll_writeIndex]
  exact wholeTick_readIndex_of_ne (s := storePulse p s) h.unread (incMod_lt _ _)

/-- The next pulse will be read too, since there are two indices or more. -/
theorem ReadyForPulse.pulseAndPoll : ReadyForPulse (pulseAndPoll p s) := by
  obtain ⟨hcfg, hring, -, hen, -⟩ := pulseAndPoll_keepsShared p s
  have hwrite : (Machine.pulseAndPoll p s).writeIndex < 2 ^ (Machine.pulseAndPoll p s).cfg.IW := by
    rw [pulseAndPoll_writeIndex, pulseAndPoll_cfg]
    exact incMod_lt _ _
  have hwidth : 1 ≤ (Machine.pulseAndPoll p s).cfg.IW := pulseAndPoll_cfg p s ▸ h.indexWidth
  refine ⟨hwidth, hring ▸ storePulse_ring_wf h.ring p, hwrite, hen.trans h.enabled, (wholeTick_ended _).2, ?_⟩
  rw [h.pulseAndPoll_readIndex]
  exact (incMod_ne_self hwidth hwrite).symm

end

/-- Settles O32: P5 and P6 leave the latches that P3 and P4 filled from the slot of the pulse. -/
theorem pollDecodesTheNewestRecord : Obligations.PollDecodesTheNewestRecord := by
  intro rise fall s hs he hidle hunread
  have h := hs.readyForPulse he hidle hunread
  obtain ⟨hupdating, hphase⟩ := wholeTick_ended (storePulse (rise, fall) s)
  obtain ⟨-, hstart, hend⟩ := phaseDecode_frame (pulseLatched (rise, fall) s)
  refine ⟨_, h.runInstrs_pulse_poll (rise, fall), ?_, ?_, h.pulseAndPoll_readIndex _, pulseAndPoll_writeIndex _ s,
    hphase, hupdating⟩
  · rw [h.pulseAndPoll_eq, phaseAdvance_cStart]
    exact hstart
  · rw [h.pulseAndPoll_eq, phaseAdvance_cEnd]
    exact hend

/-! ### A sync and then a beam (S4) -/

/-- The rise and the fall of a pulse that rises at `t` and lasts `d` ticks (R69). -/
def pulseTimes (c : Config) (t d : Ticks) : Ticks × Ticks := (t, (t + d) % 2 ^ c.W)

/-- The class of a latched pulse is that of its width, across a wrap of the time source too (R107, R167). -/
theorem latchedClass_pulseLatched {s : State} {d : Ticks} (t : Ticks) (hd : d < 2 ^ s.cfg.W) :
    latchedClass (pulseLatched (pulseTimes s.cfg t d) s) = classify s.cfg d :=
  congrArg (classify s.cfg) (subMod_add_mod hd)

/-- P5 on a sync that is not skipped takes the origin and the axis from it and leaves the angles (R108). -/
theorem phaseDecode_takesOrigin {s : State} {k : SyncCode} (hk : latchedClass s = .sync k)
    (hskip : k.getLsbD 2 = false) :
    (phaseDecode s).syncPulseStart = s.cStart ∧
    (phaseDecode s).activeAxis = (if k.getLsbD 0 then .creep else .sweep) ∧ (phaseDecode s).angle = s.angle := by
  rw [phaseDecode_of_not_skip hk hskip]
  exact ⟨rfl, rfl, rfl⟩

/-- After a sync pulse that is not skipped, and a POLL, its rise is the origin and its axis the active one (R108). -/
theorem pulseAndPoll_of_sync {s : State} (h : ReadyForPulse s) {p : Ticks × Ticks} {k : SyncCode}
    (hk : latchedClass (pulseLatched p s) = .sync k) (hskip : k.getLsbD 2 = false) :
    (pulseAndPoll p s).syncPulseStart = p.1 ∧
    (pulseAndPoll p s).activeAxis = (if k.getLsbD 0 then .creep else .sweep) ∧
    (pulseAndPoll p s).angle = s.angle := by
  obtain ⟨horigin, haxis, hangle⟩ := phaseDecode_takesOrigin hk hskip
  obtain ⟨hangle', haxis', horigin'⟩ := phaseAdvance_keepsConverter (phaseDecode (pulseLatched p s))
  rw [h.pulseAndPoll_eq, horigin', haxis', hangle', horigin, haxis, hangle]
  exact ⟨rfl, rfl, (pulseLatched_keepsConverter p s).angle⟩

/-- The time `k` ticks into the window that follows the origin, modulo 2^W (R110). -/
def windowTime (s : State) (k : Nat) : Ticks := (s.syncPulseStart + s.cfg.deadZone + k) % 2 ^ s.cfg.W

/-- A pulse that rises `k` ticks into the window is `DEAD_ZONE + k` after the origin (R110, R167). -/
theorem relativeStart_pulseLatched {s : State} (hc : s.cfg.WF) {k : Nat} (hk : k ≤ s.cfg.span) (d : Ticks) :
    relativeStart (pulseLatched (pulseTimes s.cfg (windowTime s k) d) s) = s.cfg.deadZone + k := by
  obtain ⟨-, -, -, -, -, hwindow, -, -, -, ⟨-, -, -, -, hmax⟩, -⟩ := hc
  have hlt : s.cfg.deadZone + k < 2 ^ s.cfg.W := calc
    s.cfg.deadZone + k ≤ s.cfg.windowMax := hwindow ▸ Nat.add_le_add_left hk _
    _ < 2 ^ s.cfg.W := Nat.lt_of_le_pred (Nat.two_pow_pos _) hmax
  have hrise : windowTime s k = (s.syncPulseStart + (s.cfg.deadZone + k)) % 2 ^ s.cfg.W := by
    rw [windowTime, Nat.add_assoc]
  exact (congrArg (subMod s.cfg.W · s.syncPulseStart) hrise).trans (subMod_add_mod hlt)

theorem beamInWindow_pulseLatched {s : State} (hc : s.cfg.WF) {k : Nat} (hk : k ≤ s.cfg.span) {d : Ticks}
    (hd : d < 2 ^ s.cfg.W) (hbeam : classify s.cfg d = .beam) :
    BeamInWindow (pulseLatched (pulseTimes s.cfg (windowTime s k) d) s) := by
  have hrel := relativeStart_pulseLatched hc hk d
  obtain ⟨-, -, -, -, -, hwindow, -⟩ := hc
  have hmax : s.cfg.deadZone + k ≤ s.cfg.windowMax := hwindow ▸ Nat.add_le_add_left hk _
  exact ⟨(latchedClass_pulseLatched _ hd).trans hbeam, hrel ▸ Nat.le_add_right _ _, hrel ▸ hmax⟩

/-- After a beam pulse in the window, and a POLL, its angle is stored and reported; the origin and the axis stay
(R110, R116). -/
theorem pulseAndPoll_of_beam {s : State} (h : ReadyForPulse s) {p : Ticks × Ticks}
    (hin : BeamInWindow (pulseLatched p s)) :
    (pulseAndPoll p s).result = .bool true ∧ (pulseAndPoll p s).syncPulseStart = s.syncPulseStart ∧
    (pulseAndPoll p s).activeAxis = s.activeAxis ∧
    (pulseAndPoll p s).angle s.activeAxis = angleOf s.cfg (relativeStart (pulseLatched p s) - s.cfg.deadZone) ∧
    ∀ a, a ≠ s.activeAxis → (pulseAndPoll p s).angle a = s.angle a := by
  obtain ⟨hangle, haxis, horigin⟩ := pulseLatched_keepsConverter p s
  obtain ⟨hret, hstored, hother, haxis', horigin'⟩ := phaseDecode_stores hin
  obtain ⟨hangle'', haxis'', horigin''⟩ := phaseAdvance_keepsConverter (phaseDecode (pulseLatched p s))
  rw [haxis] at hstored
  rw [hangle, haxis] at hother
  rw [h.pulseAndPoll_eq, phaseAdvance_result, horigin'', haxis'', hangle'']
  exact ⟨congrArg _ hret, horigin'.trans horigin, haxis'.trans haxis, hstored, hother⟩

/-- A beam pulse that rises `k` ticks into the window, and a POLL, store the angle of `k` and report it; the origin and
the axis stay (R110, R116, R120). -/
theorem ReadyForPulse.runInstrs_beam_poll {s : State} (h : ReadyForPulse s) (hc : s.cfg.WF) {k : Nat} {d : Ticks}
    (hk : k ≤ s.cfg.span) (hd : d < 2 ^ s.cfg.W) (hbeam : classify s.cfg d = .beam) :
    ∃ t, runInstrs (pulse s.cfg (windowTime s k) d ++ [.poll]) s = .next t ∧
      t.result = .bool true ∧ t.syncPulseStart = s.syncPulseStart ∧ t.activeAxis = s.activeAxis ∧
      t.angle s.activeAxis = angleOf s.cfg k ∧ ∀ a, a ≠ s.activeAxis → t.angle a = s.angle a := by
  have hstored := pulseAndPoll_of_beam h (beamInWindow_pulseLatched hc hk hd hbeam)
  rw [relativeStart_pulseLatched hc hk d, Nat.add_sub_cancel_left] at hstored
  exact ⟨_, h.runInstrs_pulse_poll (pulseTimes s.cfg (windowTime s k) d), hstored⟩

/-- Settles O35: the sync's tick leaves its start and its axis as the origin and the active axis and consumes the
record, so the beam's tick finds its own, `DEAD_ZONE + k` after that origin. -/
theorem syncThenBeamGivesTheAngle : Obligations.SyncThenBeamGivesTheAngle := by
  intro s origin width k beamWidth code hs he hidle hunread _ hwidth hbeamWidth hk hsync hskip hbeam axis
  have hready := hs.readyForPulse he hidle hunread
  have hrun := hready.runInstrs_pulse_poll (pulseTimes s.cfg origin width)
  have hcfg := pulseAndPoll_cfg (pulseTimes s.cfg origin width) s
  obtain ⟨horigin, haxis, hangle⟩ :=
    pulseAndPoll_of_sync hready ((latchedClass_pulseLatched origin hwidth).trans hsync) hskip
  have hc : (pulseAndPoll (pulseTimes s.cfg origin width) s).cfg.WF := by
    rw [hcfg]
    exact hs.cfg
  rw [← hcfg] at hk hbeamWidth hbeam
  obtain ⟨t, hrun', hresult, horigin', haxis', hstored, hother⟩ :=
    (hready.pulseAndPoll _).runInstrs_beam_poll hc hk hbeamWidth hbeam
  rw [windowTime, horigin, hcfg] at hrun'
  rw [haxis, hcfg] at hstored
  rw [haxis, hangle] at hother
  refine ⟨t, ?_, hresult, horigin'.trans horigin, haxis'.trans haxis, hstored, hother⟩
  rw [List.append_assoc]
  exact (runInstrs_append hrun _).trans hrun'

/-! ### The phases of a tick with edges put off (R106, R117) -/

/-- The state `t` is what the edges `es` make of `u`, up to the result port: the tick has gone on as in `u`, and the
edges can as well come after it. -/
def Defers (es : List Instr) (u t : State) : Prop := ∃ v, runInstrs es u = .next v ∧ t = v.setResult t.result

theorem exists_defers {es : List Instr} (hes : EdgesOnly es) (u : State) :
    ∃ t, runInstrs es u = .next t ∧ Defers es u t := by
  obtain ⟨m, w, r, hrun⟩ := runInstrs_edges hes u
  exact ⟨_, hrun, _, hrun, rfl⟩

/-- What edges write depends on what the producer reads, and so is the same from every state that agrees on it. -/
theorem runInstrs_edges_uniform {es : List Instr} (hes : EdgesOnly es) (s : State) :
    ∃ m w, ∀ s', ProducerAgrees s s' → ∃ r, runInstrs es s' = .next (s'.setShared m w r) := by
  obtain ⟨m, w, r, hrun⟩ := runInstrs_edges hes s
  refine ⟨m, w, fun s' h => ?_⟩
  obtain ⟨m', w', r', hrun'⟩ := runInstrs_edges hes s'
  obtain ⟨t, t', ht, ht', hagree⟩ := h.runInstrs_edges hes
  obtain rfl := Host.Outcome.next.inj (hrun.symm.trans ht)
  obtain rfl := Host.Outcome.next.inj (hrun'.symm.trans ht')
  obtain rfl : m = m' := hagree.ring
  obtain rfl : w = w' := hagree.writeIndex
  exact ⟨r', hrun'⟩

theorem ProducerAgrees.refl (s : State) : ProducerAgrees s s := ⟨rfl, rfl, rfl, rfl⟩

theorem KeepsShared.producerAgrees {s t : State} (h : KeepsShared s t) : ProducerAgrees s t :=
  ⟨h.cfg.symm, h.enabled.symm, h.ring.symm, h.writeIndex.symm⟩

/-- More edges go to the end of those put off. -/
theorem Defers.edges {es es' : List Instr} {u t : State} (h : Defers es u t) (hes' : EdgesOnly es') :
    ∃ t', runInstrs es' t = .next t' ∧ Defers (es ++ es') u t' := by
  obtain ⟨v, hrun, ht⟩ := h
  obtain ⟨m, w, hedges⟩ := runInstrs_edges_uniform hes' v
  obtain ⟨r, hv⟩ := hedges v (.refl v)
  obtain ⟨r', ht'⟩ := hedges t (ht ▸ ⟨rfl, rfl, rfl, rfl⟩)
  refine ⟨_, ht', v.setShared m w r, (runInstrs_append hrun es').trans hv, ?_⟩
  rw [ht]
  rfl

/-- A phase that reads alike goes before the edges put off, and has its own result. -/
theorem Defers.phase {es : List Instr} {u t : State} {p : Phase} (h : Defers es u t) (hes : EdgesOnly es)
    (hp : u.cphase = p) (halike : ReadsAlike u t.ring p) :
    exec .stepTick t = .next (runPhase p t) ∧ Defers es (runPhase p u) (runPhase p t) ∧
      (runPhase p t).result = (runPhase p u).result := by
  obtain ⟨v, hrun, ht⟩ := h
  obtain ⟨m, w, hedges⟩ := runInstrs_edges_uniform hes u
  obtain ⟨r, hu⟩ := hedges u (.refl u)
  obtain ⟨r', hu'⟩ := hedges (runPhase p u) (runPhase_keepsShared p u).producerAgrees
  obtain rfl := Host.Outcome.next.inj (hrun.symm.trans hu)
  have ht' : t = u.setShared m w t.result := ht
  have hm : t.ring = m := congrArg State.ring ht'
  have hphase : runPhase p t = (runPhase p u).setShared m w (runPhase p u).result := by
    rw [ht']
    exact runPhase_setShared (hm ▸ halike) w _
  have hcphase : t.cphase = p := (congrArg State.cphase ht').trans hp
  refine ⟨exec_stepTick hcphase halike.ne_idle, ⟨_, hu', ?_⟩, by rw [hphase]; rfl⟩
  rw [hphase]
  rfl

/-- Such a phase and more edges after it. -/
theorem Defers.phase_edges {es es' : List Instr} {u t : State} {p : Phase} (h : Defers es u t) (hes : EdgesOnly es)
    (hp : u.cphase = p) (halike : ReadsAlike u t.ring p) (hes' : EdgesOnly es') :
    ∃ t', runInstrs (.stepTick :: es') t = .next t' ∧ Defers (es ++ es') (runPhase p u) t' := by
  obtain ⟨hstep, hphase, -⟩ := h.phase hes hp halike
  obtain ⟨t', hrun, hdefers⟩ := hphase.edges hes'
  exact ⟨t', (runInstrs_cons hstep es').trans hrun, hdefers⟩

/-- Settles O39: P5 and P6 read no shared state, so the edge can be put off. -/
theorem lateEdgesCommuteWithTheTick : Obligations.LateEdgesCommuteWithTheTick := by
  intro s e he hs
  have hes : EdgesOnly [e] := List.forall_mem_singleton.2 he
  obtain ⟨t, hrun, hdefer⟩ := exists_defers hes s
  obtain ⟨p, hp, halike⟩ : ∃ p, s.cphase = p ∧ ReadsAlike s t.ring p :=
    hs.elim (fun h => ⟨.p5, h, .decode⟩) (fun h => ⟨.p6, h, .advance⟩)
  obtain ⟨hstep, ⟨t', hrun', ht⟩, -⟩ := hdefer.phase hes hp halike
  exact ⟨_, t', (runInstrs_append hrun [.stepTick]).trans (runInstrs_cons hstep []),
    (runInstrs_cons (exec_stepTick hp halike.ne_idle) [e]).trans hrun', ht⟩

/-! ### The slot a tick reads, and the edges that fall inside it (R41, R53, R117) -/

theorem publishes_append (es es' : List Instr) : publishes (es ++ es') = publishes es + publishes es' := by
  induction es with
  | nil => simp [publishes]
  | cons i es ih =>
    cases i <;> simp only [List.cons_append, publishes, ih]
    case edgeF => omega

theorem publishes_le_cons (i : Instr) (es : List Instr) : publishes es ≤ publishes (i :: es) := by
  cases i <;> simp only [publishes, le_refl]
  case edgeF => omega

/-- An edge writes at most the slot at `writeIndex`, and only a publish moves that on (R81 to R83). -/
theorem exec_edge_spares {e : Instr} (he : isEdge e = true) (s : State) :
    ∃ t, exec e s = .next t ∧ t.cfg = s.cfg ∧
      (∀ i f, slotOf s.cfg i ≠ slotOf s.cfg s.writeIndex → slotRead t i f = slotRead s i f) ∧
      (t.writeIndex = s.writeIndex ∨ t.writeIndex = incMod s.cfg.IW s.writeIndex ∧ ∃ x, e = .edgeF x) := by
  by_cases hen : s.enabled = true
  · cases e <;> simp only [isEdge, Bool.false_eq_true] at he
    case edgeF x =>
      exact ⟨_, exec_edgeF_enabled x hen, rfl,
        fun _ _ hi => slotRead_slotWrite_other x (fun h => hi h.1), .inr ⟨rfl, x, rfl⟩⟩
    case edgeR x =>
      exact ⟨_, exec_edgeR_enabled x hen, rfl, fun _ _ hi => slotRead_slotWrite_other x (fun h => hi h.1), .inl rfl⟩
  · exact ⟨_, exec_edge_disabled he (Bool.eq_false_of_not_eq_true hen), rfl, fun _ _ _ => rfl, .inl rfl⟩

theorem slotOf_incMod_add {c : Config} (hK : c.K ≤ c.IW) (w : Index) (n : Nat) :
    slotOf c (incMod c.IW w + n) = slotOf c (w + (n + 1)) := by
  rw [← slotOf_mod c hK, incMod, Nat.mod_add_mod, slotOf_mod c hK, Nat.add_assoc, Nat.add_comm 1]

/-- Edges write only the slots from that of `writeIndex` on, as many as there are publishes and one more. -/
theorem slotRead_edges {es : List Instr} (hes : EdgesOnly es) {s t : State} (hrun : runInstrs es s = .next t)
    (hK : s.cfg.K ≤ s.cfg.IW) {i : Index}
    (hi : ∀ n ≤ publishes es, slotOf s.cfg i ≠ slotOf s.cfg (s.writeIndex + n)) (f : Field) :
    slotRead t i f = slotRead s i f := by
  induction es generalizing s with
  | nil => rw [← Host.Outcome.next.inj hrun]
  | cons e es ih =>
    obtain ⟨he, hes⟩ := List.forall_mem_cons.1 hes
    obtain ⟨u, hu, hcfg, hread, hwrite⟩ := exec_edge_spares he s
    rw [runInstrs_cons hu] at hrun
    refine (ih hes hrun (hcfg ▸ hK) fun n hn => ?_).trans (hread i f (hi 0 (Nat.zero_le _)))
    rw [hcfg]
    rcases hwrite with hsame | ⟨hnext, x, rfl⟩
    · rw [hsame]
      exact hi n (hn.trans (publishes_le_cons e es))
    · rw [hnext, slotOf_incMod_add hK]
      exact hi (n + 1) (Nat.succ_le_succ hn)

/-- Fewer than CAPACITY - 1 publishes spare the newest record, which lies just behind `writeIndex` (R53). -/
theorem slotRead_newest_edges {es : List Instr} (hes : EdgesOnly es) {s t : State} (hrun : runInstrs es s = .next t)
    (hK : s.cfg.K ≤ s.cfg.IW) (hw : s.writeIndex < 2 ^ s.cfg.IW) (hfew : publishes es < s.cfg.capacity - 1)
    (f : Field) : slotRead t (newestIndex s) f = slotRead s (newestIndex s) f := by
  refine slotRead_edges hes hrun hK (fun n hn => ?_) f
  have hnext : slotOf s.cfg (s.writeIndex + n) = slotOf s.cfg (newestIndex s + (n + 1)) := by
    rw [← slotOf_incMod_add hK, newestIndex, incMod_decMod hw]
  rw [hnext]
  exact slotOf_add_ne s.cfg (newestIndex s) (n := 0) (Nat.succ_pos n) (by omega)

/-- The record the tick has chosen is spared by the edges put off, so a load reads in `t` what it reads in `u`. -/
theorem Defers.slotRead_newest {es : List Instr} {u t : State} (h : Defers es u t) (hes : EdgesOnly es)
    (hK : u.cfg.K ≤ u.cfg.IW) (hw : u.writeIndex < 2 ^ u.cfg.IW) (hfew : publishes es < u.cfg.capacity - 1)
    (hread : u.readIndex = newestIndex u) (f : Field) :
    t.ring.read (slotAddr u.cfg u.readIndex f) = slotRead u u.readIndex f := by
  obtain ⟨v, hrun, ht⟩ := h
  obtain ⟨m, w, r, hedges⟩ := runInstrs_edges hes u
  obtain rfl := Host.Outcome.next.inj (hrun.symm.trans hedges)
  have hspared := slotRead_newest_edges hes hrun hK hw hfew f
  rw [hread, ← hspared, ht]
  rfl

/-- P2 of a tick does what P2 of a POLL at its place does (R104, R113). -/
theorem phaseSeek_of_poll {s : State} (hs : s.updating = true) :
    phaseSeek (toPhase (beginOp { s with cphase := .idle, updating := false }) .p2) = phaseSeek s := by
  rw [beginOp_eq, toPhase_eq, phaseSeek_eq, phaseSeek_eq, hs]

/-- Phases P3 to P6, by which a tick decodes the record it has chosen (R105 to R112). -/
def decodeChosen (s : State) : State := phaseAdvance (phaseDecode (phaseLoadEnd (phaseLoadStart s)))

/-- A POLL at the place of P2 is the phases P2 to P6 of the tick. -/
theorem exec_poll_at_seek {s : State} (hs : s.updating = true) (hdata : s.readIndex ≠ s.writeIndex) :
    exec .poll { s with cphase := .idle, updating := false } = .next (decodeChosen (phaseSeek s)) := by
  have hdata' : { s with cphase := .idle, updating := false }.readIndex ≠
    { s with cphase := .idle, updating := false }.writeIndex := hdata
  rw [exec_poll_idle rfl, wholeTick_of_ne hdata', tickLatched, phaseSeek_of_poll hs, decodeChosen]

/-- From P3 on each phase goes before the edges that have come so far: P3 and P4 read a slot that those edges spare, and
P5 and P6 read no shared state. -/
theorem defers_decodeChosen {u : State} {e2 e3 e4 e5 : List Instr} (hphase : u.cphase = .p3)
    (hread : u.readIndex = newestIndex u) (hK : u.cfg.K ≤ u.cfg.IW) (hw : u.writeIndex < 2 ^ u.cfg.IW)
    (he2 : EdgesOnly e2) (he3 : EdgesOnly e3) (he4 : EdgesOnly e4) (he5 : EdgesOnly e5)
    (hfew : publishes (e2 ++ e3) < u.cfg.capacity - 1) :
    ∃ t, runInstrs (e2 ++ .stepTick :: (e3 ++ .stepTick :: (e4 ++ .stepTick :: (e5 ++ [.stepTick])))) u = .next t ∧
      Defers (e2 ++ e3 ++ e4 ++ e5) (decodeChosen u) t ∧ t.result = (decodeChosen u).result := by
  have he23 : EdgesOnly (e2 ++ e3) := List.forall_mem_append.2 ⟨he2, he3⟩
  have he234 : EdgesOnly (e2 ++ e3 ++ e4) := List.forall_mem_append.2 ⟨he23, he4⟩
  have he2345 : EdgesOnly (e2 ++ e3 ++ e4 ++ e5) := List.forall_mem_append.2 ⟨he234, he5⟩
  have hfew2 : publishes e2 < u.cfg.capacity - 1 :=
    lt_of_le_of_lt (publishes_append e2 e3 ▸ Nat.le_add_right _ _) hfew
  obtain ⟨t2, hrun2, h2⟩ := exists_defers he2 u
  obtain ⟨t3, hrun3, h3⟩ :=
    h2.phase_edges he2 hphase (.loadStart (h2.slotRead_newest he2 hK hw hfew2 hread .start)) he3
  obtain ⟨t4, hrun4, h4⟩ :=
    h3.phase_edges he23 (p := .p4) rfl (.loadEnd (h3.slotRead_newest he23 hK hw hfew hread .finish)) he4
  obtain ⟨t5, hrun5, h5⟩ := h4.phase_edges he234 (p := .p5) rfl .decode he5
  obtain ⟨hstep6, h6, hresult⟩ := h5.phase he2345 (p := .p6) rfl .advance
  have hrun := (runInstrs_append hrun2 _).trans <| (runInstrs_append hrun3 _).trans <|
    (runInstrs_append hrun4 _).trans <| (runInstrs_append hrun5 _).trans (runInstrs_cons hstep6 [])
  exact ⟨_, hrun, h6, hresult⟩

/-- Settles O38: the tick from P3 on with the edges put off is the rest of the POLL and then all the edges. -/
theorem steppedTickEqualsAPollAtItsSeek : Obligations.SteppedTickEqualsAPollAtItsSeek := by
  intro s e2 e3 e4 e5 hs hphase hdata he2 he3 he4 he5 hfew
  obtain ⟨-, -, hK, -⟩ := hs.cfg
  have hseek : exec .stepTick s = .next (phaseSeek s) := exec_stepTick hphase nofun
  obtain ⟨t, hrun, ⟨t', hrun', ht⟩, hresult⟩ := defers_decodeChosen (u := phaseSeek s) rfl rfl hK hs.writeIndex
    he2 he3 he4 he5 (publishes_append e2 e3 ▸ hfew)
  refine ⟨t, _, t', ?_, exec_poll_at_seek (hs.updating.2 (hphase ▸ nofun)) hdata, hrun', ht, hresult⟩
  simpa using (runInstrs_cons hseek _).trans hrun

end Sys2Proof.Machine

/-! PROOFS. The statements of 43_angle_converter.md: the accessors (R123, R124), the value of an angle's pattern (R10),
and of the mapping its end points, its bounds, its monotony and its error (R120 to R122, V-A). -/

namespace Sys2Proof

/-! ### The parts of a well-formed configuration the mapping rests on (R6, log 9) -/

theorem Config.WF.one_le_span {c : Config} (h : c.WF) : 1 ≤ c.span := by
  obtain ⟨-, -, -, -, hspan, -⟩ := h
  exact hspan

theorem Config.WF.flt_wf {c : Config} (h : c.WF) : c.flt.WF := by
  obtain ⟨-, -, -, -, -, -, -, -, -, -, hflt⟩ := h
  exact hflt

end Sys2Proof

namespace Sys2Proof.Machine

/-! ### The accessors (R123, R124) -/

/-- Settles O15: both are read through `whenIdle`. -/
theorem accessorsReturnTheirAxis : Obligations.AccessorsReturnTheirAxis :=
  ⟨fun c => ⟨decode_word c 5 (Nat.two_pow_pos _), decode_word c 6 (Nat.two_pow_pos _)⟩,
    fun _ hs => ⟨whenIdle_idle hs, whenIdle_idle hs⟩, fun _ hs => ⟨whenIdle_busy hs, whenIdle_busy hs⟩⟩

/-! ### The value of a pattern (R10) -/

/-- The magnitude that `fltValue` reads from the exponent and the fraction of a pattern without its sign. -/
def fltMagnitude (f : FltFormat) (v : FltBits) : Nat :=
  if v / 2 ^ f.fracBits = 0 then v % 2 ^ f.fracBits
  else (2 ^ f.fracBits + v % 2 ^ f.fracBits) * 2 ^ (v / 2 ^ f.fracBits - 1)

/-- The sign bit does not disturb the two fields below it. -/
theorem fltValue_sign_add {f : FltFormat} {v : FltBits} (neg : Bool) (hv : v < 2 ^ (f.expBits + f.fracBits)) :
    fltValue f (fltSign f neg + v) = if neg then -(fltMagnitude f v : Int) else fltMagnitude f v := by
  have hsign : 2 ^ (f.expBits + f.fracBits) = 2 ^ f.fracBits * 2 ^ f.expBits := by rw [Nat.pow_add, Nat.mul_comm]
  have hexp : v / 2 ^ f.fracBits % 2 ^ f.expBits = v / 2 ^ f.fracBits :=
    Nat.mod_eq_of_lt (Nat.div_lt_of_lt_mul (hsign ▸ hv))
  cases neg with
  | false => simp [fltValue, fltSign, fltMagnitude, hexp, Nat.div_eq_of_lt hv]
  | true =>
    have htop : (2 ^ (f.expBits + f.fracBits) + v) / 2 ^ (f.expBits + f.fracBits) = 1 := by
      rw [Nat.add_div_left _ (Nat.two_pow_pos _), Nat.div_eq_of_lt hv]
    have hfrac : (2 ^ (f.expBits + f.fracBits) + v) % 2 ^ f.fracBits = v % 2 ^ f.fracBits := by
      rw [hsign, Nat.mul_add_mod]
    have hexp' : (2 ^ (f.expBits + f.fracBits) + v) / 2 ^ f.fracBits % 2 ^ f.expBits = v / 2 ^ f.fracBits := by
      rw [hsign, Nat.mul_add_div (Nat.two_pow_pos _), Nat.add_mod_left, hexp]
    rw [fltValue, fltSign, if_pos rfl, htop, hfrac, hexp', fltMagnitude]
    rfl

/-- The exponent field `q` and the fraction field `r` of a pattern; the lowest binade shares its unit with
the subnormals. -/
theorem fltMagnitude_fields {f : FltFormat} {q r : Nat} (hr : r < 2 ^ f.fracBits) :
    fltMagnitude f (q * 2 ^ f.fracBits + r) = if q = 0 then r else (2 ^ f.fracBits + r) * 2 ^ (q - 1) := by
  have hdiv : (q * 2 ^ f.fracBits + r) / 2 ^ f.fracBits = q := by
    rw [Nat.mul_comm, Nat.mul_add_div (Nat.two_pow_pos _), Nat.div_eq_of_lt hr, Nat.add_zero]
  rw [fltMagnitude, hdiv, Nat.mul_comm, Nat.mul_add_mod, Nat.mod_eq_of_lt hr]

/-- A significand `a` of the binade `e`: its leading bit is counted in the exponent field. -/
theorem fltMagnitude_significand {f : FltFormat} {e a : Nat} (ha : a < 2 ^ (f.fracBits + 1))
    (hlead : e = 0 ∨ 2 ^ f.fracBits ≤ a) : fltMagnitude f (e * 2 ^ f.fracBits + a) = a * 2 ^ e := by
  rcases Nat.lt_or_ge a (2 ^ f.fracBits) with hsub | hnorm
  · obtain rfl : e = 0 := hlead.resolve_right (Nat.not_le.2 hsub)
    rw [fltMagnitude_fields hsub, if_pos rfl, pow_zero, Nat.mul_one]
  · obtain ⟨r, rfl⟩ := Nat.exists_eq_add_of_le hnorm
    have hr : r < 2 ^ f.fracBits := by rw [Nat.pow_succ] at ha; omega
    rw [← Nat.add_assoc, ← Nat.succ_mul, fltMagnitude_fields hr, if_neg (Nat.succ_ne_zero e), Nat.succ_sub_one]

/-- A pattern with a larger exponent field has a larger magnitude: a power of two lies between the two. -/
theorem fltMagnitude_mono (f : FltFormat) {v w : FltBits} (h : v ≤ w) : fltMagnitude f v ≤ fltMagnitude f w := by
  have hfrac := Nat.mod_lt v (Nat.two_pow_pos f.fracBits)
  rcases (Nat.div_le_div_right (c := 2 ^ f.fracBits) h).eq_or_lt with heq | hlt
  · have hmod : v % 2 ^ f.fracBits ≤ w % 2 ^ f.fracBits := by
      have hvdm := Nat.div_add_mod v (2 ^ f.fracBits)
      rw [heq] at hvdm
      exact Nat.le_of_add_le_add_left (by rwa [hvdm, Nat.div_add_mod])
    rw [fltMagnitude, fltMagnitude, heq]
    split
    · exact hmod
    · exact Nat.mul_le_mul_right _ (Nat.add_le_add_left hmod _)
  · calc fltMagnitude f v ≤ 2 ^ f.fracBits * 2 ^ (v / 2 ^ f.fracBits) := by
          rw [fltMagnitude]
          split
          · exact hfrac.le.trans (Nat.le_mul_of_pos_right _ (Nat.two_pow_pos _))
          · rw [← mul_pow_sub_one ‹¬ v / _ = 0› 2, ← Nat.mul_assoc]
            exact Nat.mul_le_mul_right _ (by omega)
      _ ≤ (2 ^ f.fracBits + w % 2 ^ f.fracBits) * 2 ^ (w / 2 ^ f.fracBits - 1) :=
          Nat.mul_le_mul (Nat.le_add_right _ _) (Nat.pow_le_pow_right (by decide) (Nat.le_sub_one_of_lt hlt))
      _ = fltMagnitude f w := by rw [fltMagnitude, if_neg (Nat.ne_zero_of_lt hlt)]

/-- A representable number is read back from its pattern. -/
theorem fltMagnitude_encode {f : FltFormat} {m : Nat} (hm : FltRepresentable f m) :
    fltMagnitude f (fltEncode f m) = m := by
  obtain ⟨a, ha⟩ : ∃ a, m = a * fltUlp f m 1 :=
    (hm.multiple_or_below m 1).resolve_right fun ⟨a, hlt, hle⟩ => by omega
  have hbits := div_lt_two_pow_mul_ulp f m 1
  rw [fltUlp, Nat.div_one] at ha hbits
  rw [fltEncode]
  have hdiv : m / 2 ^ (Nat.log2 m - f.fracBits) = a := Nat.div_eq_of_eq_mul_left (Nat.two_pow_pos _) ha
  rw [hdiv, fltMagnitude_significand (hdiv ▸ Nat.div_lt_of_lt_mul (Nat.mul_comm _ _ ▸ hbits)), ← ha]
  refine (Nat.eq_zero_or_pos _).imp_right fun he => ?_
  rw [← hdiv, Nat.le_div_iff_mul_le (Nat.two_pow_pos _), ← Nat.pow_add, Nat.add_sub_cancel' (by omega)]
  exact Nat.log2_self_le (by rintro rfl; simp at he)

/-- Up to 60 the pattern of a representable number, with its sign, has its value. -/
theorem fltValue_sign_add_encode {f : FltFormat} (hf : f.WF) (neg : Bool) {m : Nat} (hm : FltRepresentable f m)
    (hle : m ≤ 60 * fltOne f) :
    fltValue f (fltSign f neg + fltEncode f m) = if neg then -(m : Int) else m := by
  rw [fltValue_sign_add neg (fltEncode_lt hf hle), fltMagnitude_encode hm]

theorem fltValue_encode {f : FltFormat} (hf : f.WF) {m : Nat} (hm : FltRepresentable f m) (hle : m ≤ 60 * fltOne f) :
    fltValue f (fltEncode f m) = m := by
  simpa [fltSign] using fltValue_sign_add_encode hf false hm hle

/-! ### A difference of two angles (R121) -/

section
variable {f : FltFormat} {a b : Nat}

theorem sixty_representable (hf : f.WF) : FltRepresentable f (60 * fltOne f) := fltRepresentable_fifteen_mul hf 2

theorem fltRound_sixty (hf : f.WF) : fltRound f (60 * fltOne f) 1 = 60 * fltOne f := by
  simpa using fltRound_of_representable (sixty_representable hf) Nat.one_pos

/-- A rounded difference of at most 60 is at most 60. -/
theorem fltRound_le_sixty (hf : f.WF) {n : Nat} (hn : n ≤ 60 * fltOne f) : fltRound f n 1 ≤ 60 * fltOne f :=
  (fltRound_mono f Nat.one_pos hn).trans_eq (fltRound_sixty hf)

/-- The value of a difference below 0. -/
theorem fltValue_fltSub_of_lt (hf : f.WF) (hab : a < b) (hba : b ≤ a + 60 * fltOne f) :
    fltValue f (fltSub f a b) = -(fltRound f (b - a) 1 : Int) := by
  rw [fltSub, if_pos hab,
    fltValue_sign_add_encode hf true (fltRound_representable f _ 1) (fltRound_le_sixty hf (by omega)), if_pos rfl]

/-- The value of a difference of at least 0. -/
theorem fltValue_fltSub_of_le (hf : f.WF) (hba : b ≤ a) (hab : a ≤ b + 60 * fltOne f) :
    fltValue f (fltSub f a b) = fltRound f (a - b) 1 := by
  rw [fltSub, if_neg (by omega), fltValue_encode hf (fltRound_representable f _ 1) (fltRound_le_sixty hf (by omega))]

/-- A difference from `b` grows with the float it is taken of. -/
theorem fltValue_fltSub_mono (hf : f.WF) {a' : Nat} (h : a ≤ a') (hba : b ≤ a + 60 * fltOne f)
    (hab : a' ≤ b + 60 * fltOne f) : fltValue f (fltSub f a b) ≤ fltValue f (fltSub f a' b) := by
  rcases Nat.lt_or_ge a b with hlt | hge
  · rw [fltValue_fltSub_of_lt hf hlt hba]
    rcases Nat.lt_or_ge a' b with hlt' | hge'
    · rw [fltValue_fltSub_of_lt hf hlt' (by omega)]
      exact Int.neg_le_neg (by exact_mod_cast fltRound_mono f Nat.one_pos (Nat.sub_le_sub_left h b))
    · rw [fltValue_fltSub_of_le hf hge' hab]
      omega
  · rw [fltValue_fltSub_of_le hf hge (by omega), fltValue_fltSub_of_le hf (hge.trans h) hab]
    exact_mod_cast fltRound_mono f Nat.one_pos (Nat.sub_le_sub_right h b)

/-- A difference of at most 60 either way has a value of at most 60 either way. -/
theorem natAbs_fltValue_fltSub_le (hf : f.WF) (hab : a ≤ b + 60 * fltOne f) (hba : b ≤ a + 60 * fltOne f) :
    (fltValue f (fltSub f a b)).natAbs ≤ 60 * fltOne f := by
  rcases Nat.lt_or_ge a b with hlt | hge
  · rw [fltValue_fltSub_of_lt hf hlt hba, Int.natAbs_neg]
    exact fltRound_le_sixty hf (by omega)
  · rw [fltValue_fltSub_of_le hf hge hab]
    exact fltRound_le_sixty hf (by omega)

end

/-! ### The mapping (R121) -/

/-- The position of `k` in the angular field, from 0 to 120: `p` of R121. -/
def fieldPosition (c : Config) (k : Nat) : Nat :=
  fltMul c.flt (fltDiv c.flt (fltOfNat c.flt k) (fltOfNat c.flt c.span)) (120 * fltOne c.flt)

/-- The last operation of R121, where no operation overflows. -/
theorem angleOf_eq_fltSub {c : Config} (hf : c.flt.WF)
    (h : fltOverflows c.flt (fltOfNat c.flt c.span) = false) (k : Nat) :
    angleOf c k = fltSub c.flt (fieldPosition c k) (60 * fltOne c.flt) := by
  rw [angleOf, h, fltOfNat_angleOffset hf, fltOfNat_angleRange hf]
  rfl

/-- The free value of log 10, where SPAN overflows. -/
theorem angleOf_eq_freeAngle {c : Config} (h : fltOverflows c.flt (fltOfNat c.flt c.span) = true) (k : Nat) :
    angleOf c k = freeAngle c k := if_pos h

theorem fieldPosition_le {c : Config} (hf : c.flt.WF) (hspan : 1 ≤ c.span) {k : Nat} (hk : k ≤ c.span) :
    fieldPosition c k ≤ 120 * fltOne c.flt :=
  fltMul_le (fltRepresentable_fifteen_mul hf 3) (fltDiv_le_one c.flt (fltOfNat_pos c.flt hspan) (fltOfNat_mono c.flt hk))

/-- Each rounded operation is monotone (V-A). -/
theorem fieldPosition_mono {c : Config} (hspan : 1 ≤ c.span) {k j : Nat} (h : k ≤ j) :
    fieldPosition c k ≤ fieldPosition c j := by
  have hq : fltDiv c.flt (fltOfNat c.flt k) (fltOfNat c.flt c.span) ≤
      fltDiv c.flt (fltOfNat c.flt j) (fltOfNat c.flt c.span) :=
    fltRound_mono _ (fltOfNat_pos c.flt hspan) (Nat.mul_le_mul_right _ (fltOfNat_mono c.flt h))
  exact fltRound_mono _ (fltOne_pos c.flt) (Nat.mul_le_mul_right _ hq)

/-- Settles O59: the position is monotone, and so is its difference from 60. -/
theorem angleIsMonotone : Obligations.AngleIsMonotone := by
  intro c k j hc hover hkj hj
  have hf := hc.flt_wf
  have hle := fieldPosition_le hf hc.one_le_span hj
  rw [angleOf_eq_fltSub hf hover, angleOf_eq_fltSub hf hover]
  exact fltValue_fltSub_mono hf (fieldPosition_mono hc.one_le_span hkj) (by omega) (by omega)

/-! ### The end points (R122 (a)) -/

theorem fltRound_zero (f : FltFormat) {d : Nat} (hd : 0 < d) : fltRound f 0 d = 0 := by
  simpa using fltRound_of_representable (f := f) (q := 0) ⟨0, 0, Nat.two_pow_pos _, rfl⟩ hd

theorem fieldPosition_zero {c : Config} (hspan : 1 ≤ c.span) : fieldPosition c 0 = 0 := by
  rw [fieldPosition, fltDiv, fltMul, fltOfNat, Nat.zero_mul, fltRound_zero _ Nat.one_pos, Nat.zero_mul,
    fltRound_zero _ (fltOfNat_pos c.flt hspan), Nat.zero_mul, fltRound_zero _ (fltOne_pos _)]

theorem fieldPosition_span {c : Config} (hf : c.flt.WF) (hspan : 1 ≤ c.span) :
    fieldPosition c c.span = 120 * fltOne c.flt := by
  have hone : fltDiv c.flt (fltOfNat c.flt c.span) (fltOfNat c.flt c.span) = fltOne c.flt := by
    rw [fltDiv, Nat.mul_comm]
    exact fltRound_of_representable (fltOne_representable _) (fltOfNat_pos c.flt hspan)
  rw [fieldPosition, hone, fltMul, Nat.mul_comm]
  exact fltRound_of_representable (fltRepresentable_fifteen_mul hf 3) (fltOne_pos _)

/-- The pattern of -60, the free value included. -/
theorem angleOf_zero {c : Config} (hf : c.flt.WF) (hspan : 1 ≤ c.span) :
    angleOf c 0 = fltSign c.flt true + fltEncode c.flt (60 * fltOne c.flt) := by
  have hsub : fltSub c.flt 0 (60 * fltOne c.flt) = fltSign c.flt true + fltEncode c.flt (60 * fltOne c.flt) := by
    rw [fltSub, if_pos (Nat.mul_pos (by decide) (fltOne_pos _)), Nat.sub_zero, fltRound_sixty hf]
  rcases hover : fltOverflows c.flt (fltOfNat c.flt c.span)
  · rw [angleOf_eq_fltSub hf hover, fieldPosition_zero hspan, hsub]
  · rw [angleOf_eq_freeAngle hover, freeAngle, fltOfNat_angleOffset hf, hsub]
    rfl

/-- The pattern of +60, the free value included. -/
theorem angleOf_span {c : Config} (hf : c.flt.WF) (hspan : 1 ≤ c.span) :
    angleOf c c.span = fltEncode c.flt (60 * fltOne c.flt) := by
  rcases hover : fltOverflows c.flt (fltOfNat c.flt c.span)
  · rw [angleOf_eq_fltSub hf hover, fieldPosition_span hf hspan, fltSub, if_neg (by omega), ← Nat.sub_mul,
      fltRound_sixty hf]
  · rw [angleOf_eq_freeAngle hover, freeAngle, fltOfNat_angleOffset hf, if_neg (by omega), if_pos rfl]

/-- Settles O56: the patterns of the end points are those of -60 and +60, and are read back. -/
theorem angleEndpointsAreExact : Obligations.AngleEndpointsAreExact := by
  intro c hc
  have hf := hc.flt_wf
  have hsixty := sixty_representable hf
  rw [angleOf_zero hf hc.one_le_span, angleOf_span hf hc.one_le_span]
  refine ⟨fltValue_sign_add_encode hf true hsixty le_rfl, fltValue_encode hf hsixty le_rfl, fun h => ?_⟩
  rw [h]
  decide

/-! ### The bounds (R122 (c)) -/

/-- A pattern up to that of 60 has a magnitude of at most 60, with either sign. -/
theorem natAbs_fltValue_sign_add_le {f : FltFormat} (hf : f.WF) (neg : Bool) {v : FltBits}
    (hv : v ≤ fltEncode f (60 * fltOne f)) : (fltValue f (fltSign f neg + v)).natAbs ≤ 60 * fltOne f := by
  have hmag := fltMagnitude_mono f hv
  rw [fltMagnitude_encode (sixty_representable hf)] at hmag
  rw [fltValue_sign_add neg (lt_of_le_of_lt hv (fltEncode_lt hf le_rfl))]
  split <;> simpa

theorem natAbs_fltValue_freeAngle_le {c : Config} (hf : c.flt.WF) (k : Nat) :
    (fltValue c.flt (freeAngle c k)).natAbs ≤ 60 * fltOne c.flt := by
  rw [freeAngle, fltOfNat_angleOffset hf]
  split
  · exact natAbs_fltValue_fltSub_le hf (by omega) (by omega)
  · split
    · simpa [fltSign] using natAbs_fltValue_sign_add_le hf false le_rfl
    · exact natAbs_fltValue_sign_add_le hf _ (Nat.le_of_lt_succ (Nat.mod_lt _ (Nat.succ_pos _)))

/-- Settles O57: a position from 0 to 120 less 60, or a free value within the bounds. -/
theorem angleStaysInTheField : Obligations.AngleStaysInTheField := by
  intro c k hc hk
  have hf := hc.flt_wf
  refine ⟨?_, angleOf_fits hf hc.one_le_span hk⟩
  rcases hover : fltOverflows c.flt (fltOfNat c.flt c.span)
  · have hle := fieldPosition_le hf hc.one_le_span hk
    rw [angleOf_eq_fltSub hf hover]
    exact natAbs_fltValue_fltSub_le hf (by omega) (by omega)
  · rw [angleOf_eq_freeAngle hover]
    exact natAbs_fltValue_freeAngle_le hf k

/-! ### The error (R122 (b)) -/

/-- The nearest natural is off by at most a half. -/
theorem nearestEven_error {d : Nat} (hd : 0 < d) (n : Nat) :
    2 * ((nearestEven n d * d : Nat) - n : Int).natAbs ≤ d := by
  have hr := Nat.mod_lt n hd
  have hN := natAbs_mul_sub_cases hd n (nearestEven n d)
  rcases nearestEven_cases n d with ⟨hlow, hq⟩ | ⟨hhigh, hq⟩ | ⟨htie, -, hq⟩ <;> omega

/-- Up to two to the significant bits, counted in multiples of `2 ^ e`, the rounding is off by at most half such a
multiple: the multiples are representable. -/
theorem fltRound_error {f : FltFormat} {n d : Nat} (e : Nat) (hd : 0 < d)
    (hn : n ≤ 2 ^ (f.fracBits + 1) * (d * 2 ^ e)) :
    2 * ((fltRound f n d * d : Nat) - n : Int).natAbs ≤ d * 2 ^ e := by
  have hu : 0 < d * 2 ^ e := Nat.mul_pos hd (Nat.two_pow_pos e)
  have hle := nearestEven_mono (d * 2 ^ e) hn
  rw [nearestEven_mul hu] at hle
  obtain ⟨hnear, -⟩ := (roundingIsToNearestTiesToEven f n d hd).2 _ (fltRepresentable_of_le e hle)
  have hhalf := nearestEven_error hu n
  rw [Nat.mul_assoc, Nat.mul_comm (2 ^ e)] at hnear
  exact (Nat.mul_le_mul_left 2 hnear).trans hhalf

/-- The error of a difference of at most 60. -/
theorem fltSub_error {f : FltFormat} (hf : f.WF) {a b : Nat} (e : Nat) (hab : a ≤ b + 60 * fltOne f)
    (hba : b ≤ a + 60 * fltOne f) (he : 60 * fltOne f ≤ 2 ^ (f.fracBits + 1) * 2 ^ e) :
    2 * (fltValue f (fltSub f a b) - ((a : Int) - b)).natAbs ≤ 2 ^ e := by
  have herr {n : Nat} (hn : n ≤ 60 * fltOne f) : 2 * ((fltRound f n 1 : Int) - n).natAbs ≤ 2 ^ e := by
    simpa using fltRound_error (f := f) (n := n) e Nat.one_pos (by simpa using hn.trans he)
  rcases Nat.lt_or_ge a b with hlt | hge
  · have h := herr (n := b - a) (by omega)
    rw [fltValue_fltSub_of_lt hf hlt hba]
    omega
  · have h := herr (n := a - b) (by omega)
    rw [fltValue_fltSub_of_le hf hge hab]
    omega

/-- A common factor does not change the rounded quotient. -/
theorem fltRound_mul_right (f : FltFormat) (n d : Nat) {c : Nat} (hc : 0 < c) :
    fltRound f (n * c) (d * c) = fltRound f n d := by
  have hnear (m : Nat) : nearestEven (n * c) (m * c) = nearestEven n m := by
    rw [nearestEven, Nat.mul_mod_mul_right, Nat.mul_div_mul_right _ _ hc, ← Nat.mul_assoc]
    simp only [Nat.mul_lt_mul_right hc, nearestEven]
  rw [fltRound, fltRound, Nat.mul_div_mul_right _ _ hc, Nat.mul_right_comm, hnear]

/-- Where `k` and SPAN are floats the position is their quotient times 120, each rounded once. -/
theorem fieldPosition_eq_fltRound {c : Config} (hspan : c.span < 2 ^ (c.flt.fracBits + 1)) {k : Nat}
    (hk : k ≤ c.span) :
    fieldPosition c k = fltRound c.flt (fltRound c.flt (k * fltOne c.flt) c.span * 120) 1 := by
  have hnat {n : Nat} (hn : n ≤ c.span) : fltOfNat c.flt n = n * fltOne c.flt :=
    fltOfNat_of_representable ⟨n, fltScale c.flt, by omega, rfl⟩
  have hone := fltOne_pos c.flt
  rw [fieldPosition, hnat hk, hnat le_rfl, fltDiv, fltRound_mul_right _ _ _ hone, fltMul, ← Nat.mul_assoc,
    ← fltRound_mul_right _ _ 1 hone, Nat.one_mul]

/-- The roundings `q`, `p` and `r` add up to the error of `r`: that of `q` counts 120 times. -/
theorem three_roundings_error {a n o g q p r : Int} (hn : 0 ≤ n) (hq : 2 * |q * n - a| ≤ n * g)
    (hp : 2 * |p - q * 120| ≤ 128 * g) (hr : 2 * |r - (p - 60 * o)| ≤ 64 * g) :
    2 * |r * n - (a * 120 - 60 * n * o)| ≤ 312 * (n * g) := by
  have hscale {x b : Int} (hx : 2 * |x| ≤ b * g) : 2 * |n * x| ≤ b * (n * g) := by
    rw [abs_mul, abs_of_nonneg hn]
    linarith [mul_le_mul_of_nonneg_left hx hn]
  have h120 : |120 * (q * n - a)| = 120 * |q * n - a| := abs_mul _ _
  calc 2 * |r * n - (a * 120 - 60 * n * o)|
      = 2 * |n * (r - (p - 60 * o)) + n * (p - q * 120) + 120 * (q * n - a)| := by ring_nf
    _ ≤ 2 * (|n * (r - (p - 60 * o))| + |n * (p - q * 120)| + |120 * (q * n - a)|) :=
        mul_le_mul_of_nonneg_left (abs_add_three _ _ _) (by decide)
    _ ≤ 312 * (n * g) := by linarith [hscale hr, hscale hp]

/-- The error of the mapping where `k` and SPAN are floats, by its three roundings, in units of half of `2 ^ e`, the
last place below 1: 120 for the quotient, 128 for the product and 64 for the difference (R122 (b)). -/
theorem angleOf_error {c : Config} (hf : c.flt.WF) (hpos : 1 ≤ c.span) (hspan : c.span < 2 ^ (c.flt.fracBits + 1))
    (hover : fltOverflows c.flt (fltOfNat c.flt c.span) = false) {k e : Nat} (hk : k ≤ c.span)
    (he : fltOne c.flt = 2 ^ (c.flt.fracBits + 1) * 2 ^ e) :
    2 * (fltValue c.flt (angleOf c k) * c.span - ((k : Int) * 120 - 60 * c.span) * fltOne c.flt).natAbs ≤
      312 * (c.span * 2 ^ e) := by
  have hulp (j : Nat) : 2 ^ (c.flt.fracBits + 1) * 2 ^ (e + j) = fltOne c.flt * 2 ^ j := by
    rw [he, pow_add _ e, mul_assoc]
  have hle := fieldPosition_le hf hpos hk
  have hkone : k * fltOne c.flt ≤ fltOne c.flt * c.span := Nat.mul_comm _ _ ▸ Nat.mul_le_mul_left _ hk
  have hqle : fltRound c.flt (k * fltOne c.flt) c.span ≤ fltOne c.flt :=
    (fltRound_mono _ hpos hkone).trans_eq (fltRound_of_representable (fltOne_representable _) hpos)
  have hq := fltRound_error (f := c.flt) (n := k * fltOne c.flt) e hpos
    (by rw [Nat.mul_left_comm, ← he, Nat.mul_comm c.span]; exact hkone)
  have hp := fltRound_error (f := c.flt) (n := fltRound c.flt (k * fltOne c.flt) c.span * 120) (e + 7) Nat.one_pos
    (by rw [Nat.one_mul, hulp]; omega)
  have hr := fltSub_error hf (a := fieldPosition c k) (b := 60 * fltOne c.flt) (e + 6) (by omega) (by omega)
    (by rw [hulp]; omega)
  rw [← fieldPosition_eq_fltRound hspan hk] at hp
  rw [← angleOf_eq_fltSub hf hover] at hr
  zify at hq hp hr ⊢
  rw [mul_one, one_mul, pow_add, mul_comm (2 ^ e)] at hp
  rw [pow_add, mul_comm (2 ^ e)] at hr
  convert three_roundings_error (Int.natCast_nonneg c.span) hq hp hr using 3
  ring

/-- Settles O58: with a unit of 2^-149 and the last place 2^-24 the error is at most 312 * 2^-25 degrees. -/
theorem angleErrorIsBelowTheTolerance : Obligations.AngleErrorIsBelowTheTolerance := by
  intro k hk
  have hone : fltOne Config.default.flt = 2 ^ 149 := by decide
  have herr := angleOf_error (c := Config.default) (by decide) (by decide) (by decide) (by decide) hk (e := 125) hone
  rw [hone] at herr
  change 2 * (fltValue FltFormat.binary32 (angleOf Config.default k) * 5555555 -
    ((k : Int) * 120 - 60 * 5555555) * (2 ^ 149 : Nat)).natAbs ≤ 312 * (5555555 * 2 ^ 125) at herr
  push_cast at herr
  omega

end Sys2Proof.Machine

/-! PROOFS. The statements of 44_host_control.md: what SETUP does before and after it has been performed (R130), and what
ISUPD returns (R131). -/

namespace Sys2Proof.Machine

/-! ### SETUP (R130) -/

/-- The first SETUP completes, whatever `cphase` is. -/
theorem exec_setup_disabled {s : State} (hs : s.enabled = false) :
    exec .setup s = .next { s with enabled := true, result := .nothing } :=
  if_neg (ne_true_of_eq_false hs)

/-- Settles O13: `enabled` alone decides between the one update and the refusal. -/
theorem setupEnablesOnce : Obligations.SetupEnablesOnce :=
  ⟨fun c => decode_word c 1 (Nat.two_pow_pos _), fun _ => exec_setup_disabled, fun _ => exec_setup_enabled⟩

/-! ### ISUPD (R131) -/

/-- ISUPD is one write of the result port, with no guard. -/
theorem exec_isUpd (s : State) : exec .isUpd s = .next { s with result := .bool s.updating } := rfl

/-- R29, as the value that `updating` holds. -/
theorem State.WF.updating_eq {s : State} (hs : s.WF) : s.updating = decide (s.cphase ≠ .idle) := by
  rw [Bool.eq_iff_iff, decide_eq_true_iff]
  exact hs.updating

/-- Settles O14: the register that ISUPD reads agrees with the sequencer under the invariant (R29). -/
theorem isUpdReturnsUpdating : Obligations.IsUpdReturnsUpdating :=
  ⟨fun c => decode_word c 7 (Nat.two_pow_pos _), exec_isUpd, fun s hs => hs.updating_eq ▸ exec_isUpd s⟩

end Sys2Proof.Machine

/-! PROOFS. The statements of 60_exceptions.md: the cases in which an operation is refused (R158), and the bound on the
STEPs of a tick whatever the producer does (R159). -/

namespace Sys2Proof.Machine

/-! ### The refusals (R158) -/

/-- The cases of R158 and their reasons. -/
inductive Refuses : Instr → State → Refusal → Prop
  | reserved {i : Instr} {s : State} (hev : i.format = .ev) (hcode : 10 ≤ i.code) : Refuses i s .reservedOp
  | setup {s : State} (hs : s.enabled = true) : Refuses .setup s .secondSetup
  | beginTick {s : State} (hs : s.cphase ≠ .idle) : Refuses .beginTick s .reentrantTick
  | poll {s : State} (hs : s.cphase ≠ .idle) : Refuses .poll s .reentrantTick
  | stepTick {s : State} (hs : s.cphase = .idle) : Refuses .stepTick s .stepWhileIdle
  | idle {s : State} : Refuses .idle s .stepWhileIdle
  | getX {s : State} (hs : s.cphase ≠ .idle) : Refuses .getX s .accessorDuringTick
  | getY {s : State} (hs : s.cphase ≠ .idle) : Refuses .getY s .accessorDuringTick

/-- The same cases sorted by their reasons, as R158 lists them. -/
theorem refuses_iff {i : Instr} {s : State} {r : Refusal} : Refuses i s r ↔
    (r = .reservedOp ∧ i.format = .ev ∧ 10 ≤ i.code) ∨
    (r = .secondSetup ∧ i = .setup ∧ s.enabled = true) ∨
    (r = .reentrantTick ∧ (i = .beginTick ∨ i = .poll) ∧ s.cphase ≠ .idle) ∨
    (r = .stepWhileIdle ∧ (i = .stepTick ∧ s.cphase = .idle ∨ i = .idle)) ∨
    (r = .accessorDuringTick ∧ (i = .getX ∨ i = .getY) ∧ s.cphase ≠ .idle) := by
  constructor
  · intro h
    cases h with
    | reserved hev hcode => exact .inl ⟨rfl, hev, hcode⟩
    | setup hs => exact .inr (.inl ⟨rfl, rfl, hs⟩)
    | beginTick hs => exact .inr (.inr (.inl ⟨rfl, .inl rfl, hs⟩))
    | poll hs => exact .inr (.inr (.inl ⟨rfl, .inr rfl, hs⟩))
    | stepTick hs => exact .inr (.inr (.inr (.inl ⟨rfl, .inl ⟨rfl, hs⟩⟩)))
    | idle => exact .inr (.inr (.inr (.inl ⟨rfl, .inr rfl⟩)))
    | getX hs => exact .inr (.inr (.inr (.inr ⟨rfl, .inl rfl, hs⟩)))
    | getY hs => exact .inr (.inr (.inr (.inr ⟨rfl, .inr rfl, hs⟩)))
  · rintro (⟨rfl, hev, hcode⟩ | ⟨rfl, rfl, hs⟩ | ⟨rfl, rfl | rfl, hs⟩ | ⟨rfl, ⟨rfl, hs⟩ | rfl⟩ |
      ⟨rfl, rfl | rfl, hs⟩)
    · exact .reserved hev hcode
    · exact .setup hs
    · exact .beginTick hs
    · exact .poll hs
    · exact .stepTick hs
    · exact .idle
    · exact .getX hs
    · exact .getY hs

/-- The event words from code 10 on are the six reserved ones (R64 (a)). -/
theorem exec_of_reserved {i : Instr} (hev : i.format = .ev) (hcode : 10 ≤ i.code) (s : State) :
    exec i s = .refused .reservedOp := by
  cases i with
  | reserved1010 | reserved1011 | reserved1100 | reserved1101 | reserved1110 | reserved1111 => rfl
  | reset | setup | edgeF | edgeR | poll | getX | getY | isUpd | beginTick | stepTick => simp [Instr.code] at hcode
  | _ => exact nomatch hev

theorem Refuses.exec_eq {i : Instr} {s : State} {r : Refusal} (h : Refuses i s r) : exec i s = .refused r := by
  cases h with
  | reserved hev hcode => exact exec_of_reserved hev hcode s
  | setup hs => exact exec_setup_enabled hs
  | beginTick hs | poll hs | getX hs | getY hs => exact whenIdle_busy hs
  | stepTick hs => exact exec_stepTick_idle hs
  | idle => rfl

/-- Outside the cases of R158 an operation completes. -/
theorem exec_next_or_refuses (i : Instr) (s : State) : (∃ t, exec i s = .next t) ∨ ∃ r, Refuses i s r := by
  cases i with
  | setup =>
    rcases hs : s.enabled
    · exact .inl ⟨_, exec_setup_disabled hs⟩
    · exact .inr ⟨_, .setup hs⟩
  | beginTick => exact (em _).imp (fun hs => ⟨_, whenIdle_idle hs⟩) (fun hs => ⟨_, .beginTick hs⟩)
  | poll => exact (em _).imp (fun hs => ⟨_, whenIdle_idle hs⟩) (fun hs => ⟨_, .poll hs⟩)
  | getX => exact (em _).imp (fun hs => ⟨_, whenIdle_idle hs⟩) (fun hs => ⟨_, .getX hs⟩)
  | getY => exact (em _).imp (fun hs => ⟨_, whenIdle_idle hs⟩) (fun hs => ⟨_, .getY hs⟩)
  | stepTick => exact (em _).symm.imp (fun hs => ⟨_, exec_stepTick rfl hs⟩) (fun hs => ⟨_, .stepTick hs⟩)
  | idle => exact .inr ⟨_, .idle⟩
  | reserved1010 | reserved1011 | reserved1100 | reserved1101 | reserved1110 | reserved1111 =>
    exact .inr ⟨_, .reserved rfl (by simp [Instr.code])⟩
  | _ => exact .inl ⟨_, rfl⟩

/-- Settles O46: an operation either completes or is in one of the listed cases, which fixes its reason. -/
theorem refusalsAreExactlyTheListed : Obligations.RefusalsAreExactlyTheListed := by
  intro i s
  simp only [← refuses_iff]
  rcases exec_next_or_refuses i s with ⟨t, e⟩ | ⟨r, hr⟩
  · rw [e]
    exact ⟨nofun, fun r => ⟨nofun, fun hr => nomatch e.symm.trans hr.exec_eq⟩⟩
  · rw [hr.exec_eq]
    exact ⟨nofun, fun r' => ⟨fun e => Host.Outcome.refused.inj e ▸ hr,
      fun hr' => hr.exec_eq.symm.trans hr'.exec_eq⟩⟩

/-! ### The bound on a tick (R159) -/

/-- How many phases a tick at this phase has left, the current one included; none at IDLE. -/
def phasesLeft : Phase → Nat
  | .idle => 0
  | .p1 => 6
  | .p2 => 5
  | .p3 => 4
  | .p4 => 3
  | .p5 => 2
  | .p6 => 1

theorem phasesLeft_le_six (p : Phase) : phasesLeft p ≤ 6 := by
  cases p <;> decide

/-- No phase goes back or stays (R102). -/
theorem phasesLeft_runPhase_lt {p : Phase} (hp : p ≠ .idle) (s : State) :
    phasesLeft (runPhase p s).cphase < phasesLeft p := by
  cases p with
  | idle => exact absurd rfl hp
  | p1 =>
    rcases phaseCheck_cases s with ⟨-, e⟩ | ⟨-, e⟩ <;> rw [runPhase, e]
    · exact (by decide : phasesLeft .idle < phasesLeft .p1)
    · exact (by decide : phasesLeft .p2 < phasesLeft .p1)
  | p2 | p3 | p4 | p5 | p6 => exact Nat.lt_add_one _

/-- Edges and then STEP run the phase on a state that differs from `s` by what the edges wrote; `cphase` is not among
it (R150). -/
theorem runInstrs_edges_stepTick {es : List Instr} (hes : EdgesOnly es) {s : State} (hs : s.cphase ≠ .idle) :
    ∃ u, runInstrs (es ++ [.stepTick]) s = .next (runPhase s.cphase u) := by
  obtain ⟨m, w, r, hedges⟩ := runInstrs_edges hes s
  refine ⟨{ s with ring := m, writeIndex := w, result := r }, (runInstrs_append hedges _).trans (runInstrs_cons ?_ [])⟩
  exact exec_stepTick rfl hs

/-- `n` STEPs, before each of them the edges of its number. -/
def stepsBetweenEdges (edges : Nat → List Instr) (n : Nat) : List Instr :=
  (List.range n).flatMap (fun m => edges m ++ [.stepTick])

theorem stepsBetweenEdges_succ (edges : Nat → List Instr) (n : Nat) :
    stepsBetweenEdges edges (n + 1) = (edges 0 ++ [.stepTick]) ++ stepsBetweenEdges (fun m => edges (m + 1)) n := by
  rw [stepsBetweenEdges, List.range_succ_eq_map, List.flatMap_cons, List.flatMap_map]
  rfl

/-- From every state the phases that are left are enough to reach IDLE, whatever edges fall between them. -/
theorem reaches_idle_within_phasesLeft (s : State) (edges : Nat → List Instr) (hedges : ∀ n, EdgesOnly (edges n)) :
    ∃ n t, n ≤ phasesLeft s.cphase ∧ runInstrs (stepsBetweenEdges edges n) s = .next t ∧ t.cphase = .idle := by
  induction hk : phasesLeft s.cphase using Nat.strong_induction_on generalizing s edges with
  | _ k ih =>
    subst hk
    by_cases hs : s.cphase = .idle
    · exact ⟨0, s, Nat.zero_le _, rfl, hs⟩
    · obtain ⟨u, hu⟩ := runInstrs_edges_stepTick (hedges 0) hs
      have hlt := phasesLeft_runPhase_lt hs u
      obtain ⟨n, t, hn, hrun, ht⟩ :=
        ih _ hlt (runPhase s.cphase u) (fun m => edges (m + 1)) (fun m => hedges (m + 1)) rfl
      refine ⟨n + 1, t, by omega, ?_, ht⟩
      rw [stepsBetweenEdges_succ, runInstrs_append hu, hrun]

/-- Settles O37: the phases left bound the STEPs, and no STEP at all would leave the tick in progress. -/
theorem everyTickEndsWithinSixSteps : Obligations.EveryTickEndsWithinSixSteps := by
  intro s edges hs hedges
  obtain ⟨n, t, hn, hrun, ht⟩ := reaches_idle_within_phasesLeft s edges hedges
  have hpos : n ≠ 0 := by
    rintro rfl
    exact hs (Host.Outcome.next.inj hrun ▸ ht)
  exact ⟨n, t, Nat.one_le_iff_ne_zero.2 hpos, hn.trans (phasesLeft_le_six _), hrun, ht⟩

end Sys2Proof.Machine

/-! PROOFS. The statements of 70_reset_and_hazards.md: what RESET leaves (R160), the records that go unseen when the
index comes round to where it was (R166), and the beam that is decoded before any sync (R171). -/

namespace Sys2Proof.Machine

/-! ### RESET (R160) -/

/-- RESET is one update, with no guard: the state of R37, with the configuration and the words still to be delivered. -/
theorem exec_reset (s : State) : exec .reset s = .next { State.reset with cfg := s.cfg, input := s.input } := rfl

/-- A ring that lists no field reads 0 in every field, whatever the configuration (R37, R41). -/
theorem slotRead_of_ring_nil {s : State} (h : s.ring = []) (i : Index) (f : Field) : slotRead s i f = 0 := by
  rw [slotRead, h, Memory.read]

/-- Settles O12: every register but the ring's is as `State.reset` writes it, and the ring lists no field. -/
theorem resetOperationFromEveryState : Obligations.ResetOperationFromEveryState :=
  ⟨fun c => decode_word c 0 (Nat.two_pow_pos _), fun s => ⟨_, exec_reset s, rfl, rfl, slotRead_of_ring_nil rfl,
    rfl, rfl, rfl, rfl, rfl, rfl, rfl, rfl, rfl, rfl, rfl, rfl⟩⟩

/-! ### The index comes round to where it was (R166) -/

/-- A multiple of 2^IW brings an index back to where it was. -/
theorem index_add_multiple {w i n : Nat} (hi : i < 2 ^ w) (hn : n % 2 ^ w = 0) : (i + n) % 2 ^ w = i := by
  rw [Nat.add_mod, hn, Nat.add_zero, Nat.mod_mod, Nat.mod_eq_of_lt hi]

/-- A multiple of 2^IW publishes leaves every register as it was: only the ring and the result port differ (R82). -/
theorem runInstrs_edges_multiple {es : List Instr} (hes : EdgesOnly es) {s : State} (he : s.enabled = true)
    (hw : s.writeIndex < 2 ^ s.cfg.IW) (hn : publishes es % 2 ^ s.cfg.IW = 0) :
    ∃ m r, runInstrs es s = .next { s with ring := m, result := r } := by
  obtain ⟨m, r, hrun⟩ := runInstrs_edges_writeIndex hes he hw
  rw [index_add_multiple hw hn] at hrun
  exact ⟨m, r, hrun⟩

/-- A POLL that finds the indices equal reports no data, and moves neither `readIndex` nor a register of the converter
(R103, R113). -/
theorem exec_poll_of_eq {s : State} (hidle : s.cphase = .idle) (h : s.readIndex = s.writeIndex) :
    ∃ t, exec .poll s = .next t ∧ t.result = .bool false ∧ t.readIndex = s.readIndex ∧ KeepsConverter s t ∧
      t.cphase = .idle ∧ t.updating = false := by
  refine ⟨wholeTick s, exec_poll_idle hidle, ?_⟩
  rw [wholeTick_of_eq h]
  exact ⟨rfl, rfl, (beginOp_keepsConverter s).trans (endTick_keepsConverter _ false), rfl, rfl⟩

/-- Settles O20: the publishes bring `writeIndex` back to `readIndex`, so P1 finds no data. -/
theorem indexAliasingReportsNoData : Obligations.IndexAliasingReportsNoData := by
  intro es s hs he hidle heq hes hmultiple
  obtain ⟨m, r, hedges⟩ := runInstrs_edges_multiple hes he hs.writeIndex hmultiple
  obtain ⟨t, hpoll, hresult, hread, ⟨hangle, haxis, horigin⟩, hphase, hupdating⟩ :=
    exec_poll_of_eq (s := { s with ring := m, result := r }) hidle heq
  exact ⟨t, (runInstrs_append hedges _).trans (runInstrs_cons hpoll []), hresult, hread, horigin, haxis,
    congrFun hangle, hphase, hupdating⟩

/-! ### A beam before any sync (R171) -/

/-- The state right after bring-up: that of R37 with the configuration `c`, enabled (R161, R162). -/
def broughtUp (c : Config) : State := { State.reset with cfg := c, enabled := true }

theorem runInstrs_bringUp (c : Config) :
    runInstrs [.reset, .setup] { State.reset with cfg := c } = .next (broughtUp c) :=
  (runInstrs_cons (exec_reset _) _).trans (runInstrs_cons (exec_setup_disabled rfl) [])

theorem broughtUp_readyForPulse {c : Config} (hc : c.WF) : ReadyForPulse (broughtUp c) := by
  obtain ⟨-, hK, hKIW, -⟩ := hc
  have hIW : 1 ≤ c.IW := hK.trans hKIW
  have hzero : 0 < 2 ^ c.IW := Nat.two_pow_pos _
  exact ⟨hIW, ⟨.nil, nofun⟩, hzero, rfl, rfl, (incMod_ne_self hIW hzero).symm⟩

/-- With the origin of R37, which is 0, the position of a record is its raw start (R110, R171). -/
theorem relativeStart_of_origin_zero {s : State} (horigin : s.syncPulseStart = 0) (hstart : s.cStart < 2 ^ s.cfg.W) :
    relativeStart s = s.cStart := by
  rw [relativeStart, horigin]
  exact subMod_of_le (Nat.zero_le _) hstart

/-- Settles O36: the origin is still 0 and the axis still SWEEP, so the beam is in the window of its raw start. -/
theorem beamBeforeAnySyncIsMeasuredFromReset : Obligations.BeamBeforeAnySyncIsMeasuredFromReset := by
  intro c rise fall hc hlow hhigh _ hbeam
  have hready := broughtUp_readyForPulse hc
  obtain ⟨-, -, -, -, -, -, -, -, -, ⟨-, -, -, -, hmax⟩, -⟩ := hc
  have hrise : rise < 2 ^ c.W := Nat.lt_of_le_pred (Nat.two_pow_pos _) (hhigh.trans hmax)
  have hrel : relativeStart (pulseLatched (rise, fall) (broughtUp c)) = rise := relativeStart_of_origin_zero rfl hrise
  have hin : BeamInWindow (pulseLatched (rise, fall) (broughtUp c)) :=
    ⟨hbeam, hlow.trans_eq hrel.symm, hrel.trans_le hhigh⟩
  obtain ⟨hresult, -, -, hsweep, hcreep⟩ := pulseAndPoll_of_beam hready hin
  rw [hrel] at hsweep
  refine ⟨_, ?_, hresult, hsweep, hcreep .creep nofun⟩
  rw [List.append_assoc]
  exact (runInstrs_append (runInstrs_bringUp c) _).trans (hready.runInstrs_pulse_poll (rise, fall))

end Sys2Proof.Machine
